-- ==== Sys2Proof/Word.lean ====
section
/-! DEFINITION. The word types of the CB4120: a word is 32 bits, a byte lane 8 (00_scope.md, Conventions). -/

namespace Sys2Proof

/-- A word of the departure memory and of the managed region: 32 bits. -/
abbrev Word := BitVec 32

/-- A byte lane of a word, a byte of a frame, of a cue message or of notice text. -/
abbrev Byte := BitVec 8

end Sys2Proof
end

