-- ==== Sys2Proof/Config.lean ====
section
/-! DEFINITION. What the part's design fixes, and the one free value of the model.

The configurable quantities of R175 are state (`Machine.Params`), since a configuration reading changes them. -/

namespace Sys2Proof.Config

/-- Departure slots, 0..95 (chapter 2, opening). -/
abbrev slotCount : Nat := 96

/-- Display link addresses, 0..127 (R95). -/
abbrev dropCount : Nat := 128

/-- The largest platform count (R79): footnote records exist for at most this many boards. -/
abbrev boardMax : Nat := 32

/-- Entries of the notice table (R151). -/
abbrev noticeCount : Nat := 8

/-- Capacity of the fetch queue (R154). -/
abbrev fetchCapacity : Nat := 2

/-- Capacity of the cue queue (R131). -/
abbrev cueCapacity : Nat := 16

/-- Capacity of the text buffer of a fetch, in bytes (R155). -/
abbrev textMax : Nat := 240

/-- Fragments a chain may have (R158). -/
abbrev fragmentMax : Nat := 16

/-- Seconds of an operating day (R46). -/
abbrev daySeconds : Nat := 86400

/-- FREE VALUE (log entry 12). The n-th order that the spec leaves open: which block hands its marks over first
in one time advance, and in which order several slots' moves are reported in one time advance (R53: "The blocks
act on one advance independently"). It has no body: nothing can be proved that rests on one order. -/
opaque openOrder : Nat → Nat

end Sys2Proof.Config
end

