-- ==== Sys2Proof/Syntax.lean ====
section
/-! DEFINITION. The commands of the block: one constructor of `Instr` per row of spec/opcode_table.json.

A command is an event at a port, pin or link of the part, or the end of one of its timers. What the event carries
is its operands: what the memory answers, what the processor drives, the bytes of a reply, the straps. -/

namespace Sys2Proof

/-- What brings a tick to the clock: a second of the internal reference or a master pulse (R51). -/
inductive TickCause where
  | reference
  | pulse
deriving DecidableEq, Repr

/-- How an exchange on the display link fails: a valid NAK reply, or the close of the reply window (R107). -/
inductive FailCause where
  | nak
  | noReply
deriving DecidableEq, Repr

/-- A change of the acknowledge input: it rises, it falls, or it rises and falls again (R144). -/
inductive AckEvent where
  | rise
  | fall
  | riseAndFall
deriving DecidableEq, Repr

/-- The commands, in the order of the table. `err` is the memory's error indication at a completion. -/
inductive Instr where
  /-- R18: a processor access (word address, direction, data, byte enables) arrives. -/
  | processorAccessArrives (addr : BitVec 30) (write : Bool) (data : Word) (lanes : BitVec 4)
  /-- R18: the arbiter starts the next waiting access. -/
  | arbiterStart
  /-- R17: the arbiter finds the starvation counter at the limit. -/
  | starvationLimitReached
  /-- R3: a pass-through write completes. -/
  | passThroughWrite (err : Bool)
  /-- R4: a captured write completes. -/
  | capturedWrite (err : Bool)
  /-- R8, R9: a processor read completes; `data` is what memory returned. -/
  | processorRead (data : Word) (err : Bool)
  /-- R7: a processor write to a part-owned word is dropped. -/
  | protectedWrite (addr : BitVec 30) (data : Word) (lanes : BitVec 4)
  /-- R172: a processor read of the event word completes. -/
  | eventWordRead (err : Bool)
  /-- R20: a processor read of the fault word completes. -/
  | faultWordRead (err : Bool)
  /-- R171: a processor write of the event-mask word completes. -/
  | eventMaskWrite (err : Bool)
  /-- R12: an own read completes. -/
  | ownReadComplete (data : Word) (err : Bool)
  /-- R14: a write-back completes. -/
  | writeBackComplete (err : Bool)
  /-- R21: the hard reset pin is asserted with these straps. -/
  | hardReset (straps : BitVec 4)
  /-- R173: the hard reset pin is released. -/
  | hardResetRelease
  /-- R24: a write of a slot's commit word completes. -/
  | commit (err : Bool)
  /-- R51: a second of the internal reference. -/
  | internalReferenceSecond
  /-- R51: a master pulse. -/
  | masterPulse
  /-- R49, R50: the loss timer expires. -/
  | lossTimerExpiry
  /-- R81: the tick at which a board's footnote runs out. -/
  | footnoteExpiry (board : Nat) (cause : TickCause)
  /-- R82: the tick at which a slot's highlight runs out. -/
  | highlightExpiry (slot : Nat) (cause : TickCause)
  /-- R162: the tick at which a notice's lifetime runs out. -/
  | noticeExpiry (entry : Nat) (cause : TickCause)
  /-- R54: the tick at which the slew remainder reaches 0. -/
  | slewComplete (cause : TickCause)
  /-- R55 to R57: the trigger write of a SET CLOCK completes. -/
  | setClock (err : Bool)
  /-- R58: the trigger write of a SET SOURCE completes. -/
  | setSource (err : Bool)
  /-- R99: the trigger write of a SET WALL MODE completes. -/
  | setWallMode (err : Bool)
  /-- R105: the trigger write of a STEP FRAME completes. -/
  | stepFrame (err : Bool)
  /-- R153, R154: the trigger write of a POST NOTICE completes. -/
  | postNotice (err : Bool)
  /-- R161: the trigger write of a WITHDRAW NOTICE completes. -/
  | withdrawNotice (err : Bool)
  /-- R140: the trigger write of an ISSUE CUE completes. -/
  | issueCue (err : Bool)
  /-- R142: the trigger write of a CLEAR CUES completes. -/
  | clearCues (err : Bool)
  /-- R112: the trigger write of a PROBE DROPS completes. -/
  | probeDrops (err : Bool)
  /-- R177: the trigger write of a RELOAD completes. -/
  | reload (err : Bool)
  /-- R169: the trigger write of a QUERY completes. -/
  | query (err : Bool)
  /-- R167: the trigger write of a command whose code names no command completes. -/
  | unknownCommand (err : Bool)
  /-- R106: the Frame Scheduler chooses and begins a frame. -/
  | frameSend
  /-- R107: the last byte of the frame is transmitted. -/
  | frameTransmitted
  /-- R107: bytes of a reply are received. -/
  | reply (bytes : List Byte)
  /-- R107: the reply window closes. -/
  | replyWindowClose
  /-- R110: the third failure of the drop addressed. -/
  | dropOffline (cause : FailCause)
  /-- R111: the probe timer expires. -/
  | probeTimerExpiry
  /-- R136: the Cue Link Port begins a message. -/
  | messageBegins
  /-- R144: the acknowledge input changes. -/
  | acknowledgeInput (e : AckEvent)
  /-- R145: a strobe pulse ends. -/
  | strobePulseEnd
  /-- R146: one timed spacing passes. -/
  | timedSpacingExpiry
  /-- R147: the busy input falls. -/
  | busyFalls
  /-- R148: the busy input rises. -/
  | busyRises
  /-- R139: the byte limit expires. -/
  | byteLimitExpiry
  /-- R147: the gap timer expires. -/
  | gapTimerExpiry
  /-- R148: the busy timer expires. -/
  | busyTimerExpiry
  /-- R134: the not-before time of the record with this enqueue order passes. -/
  | notBeforePasses (order : BitVec 32)
  /-- R163: the ticker dwell timer expires. -/
  | tickerDwellExpiry
deriving DecidableEq, Repr

end Sys2Proof
end

