-- ==== Sys2Proof/WellFormed.lean ====
section
/-! DEFINITION. Which commands are well formed: the ranges of the operands that name a board, a slot or an entry.
Every other operand has its range in its type. -/

namespace Sys2Proof

/-- The operands of a command lie in the ranges the spec gives them: boards 1..32 (R79), slots 0..95 (chapter 2),
notice entries 0..7 (R151). -/
def Instr.wellFormed : Instr → Bool
  | .footnoteExpiry board _ => decide (1 ≤ board) && decide (board ≤ Config.boardMax)
  | .highlightExpiry slot _ => decide (slot < Config.slotCount)
  | .noticeExpiry entry _ => decide (entry < Config.noticeCount)
  | _ => true

end Sys2Proof
end

