-- ==== Sys2Proof/Decode.lean ====
section
/-! DEFINITION. Decoding of table words.

Every row of spec/opcode_table.json has an empty list of fields and no fixed bits: the table gives no row any
bits, so no word of any length spells a command. -/

namespace Sys2Proof

/-- The command a table word spells: none, for every word, because the table gives its rows no bits. -/
def decodeTableWord (_nbits _w : Nat) : Option Instr := none

end Sys2Proof
end

