-- ==== Sys2Proof/Machine/Bits.lean ====
section
/-! DEFINITION. Bit fields, byte lanes and byte order (chapter 11, opening; Conventions of 00_scope.md). -/

namespace Sys2Proof.Machine

/-- The field of `len` bits of a word that begins at bit `lo` (chapter 11: bit 0 is the least significant). -/
def field (w : Word) (lo len : Nat) : Nat := (w.extractLsb' lo len).toNat

/-- One bit of a word. -/
def flag (w : Word) (i : Nat) : Bool := w.getLsbD i

/-- A bit as a number, for a field of one bit. -/
def bitOf (b : Bool) : Nat := if b then 1 else 0

/-- A word put together from fields, each a value and the bit it begins at; every other bit is 0 (R179). -/
def packWord (fields : List (Nat × Nat)) : Word :=
  BitVec.ofNat 32 (fields.foldr (fun f acc => f.1 * 2 ^ f.2 + acc) 0)

/-- A signed number as a word, in two's complement (chapter 11, opening). -/
def signedWord (i : Int) : Word := BitVec.ofInt 32 i

/-- The mask of the byte lanes whose enable is set; lane 0 is the least significant byte. -/
def laneMask (lanes : BitVec 4) : Word :=
  (if lanes.getLsbD 0 then 0x000000FF else 0) ||| (if lanes.getLsbD 1 then 0x0000FF00 else 0) |||
    (if lanes.getLsbD 2 then 0x00FF0000 else 0) ||| (if lanes.getLsbD 3 then 0xFF000000 else 0)

/-- The lane merge of a capture (R4): each enabled lane takes the data, each other lane stays. -/
def mergeLanes (old data : Word) (lanes : BitVec 4) : Word :=
  (old &&& ~~~(laneMask lanes)) ||| (data &&& laneMask lanes)

/-- The byte of a word in one lane (Conventions: lane 0 sits at the lowest byte address). -/
def laneByte (w : Word) (lane : Nat) : Byte := w.extractLsb' (8 * lane) 8

/-- A number as one byte. -/
def byteOf (n : Nat) : Byte := BitVec.ofNat 8 n

/-- A number as two bytes, least significant first (chapter 11, opening). -/
def twoBytes (n : Nat) : List Byte := [byteOf n, byteOf (n / 256)]

/-- The 16-bit additive check of a frame or reply: the sum of the bytes modulo 65536 (R106). -/
def sumCheck (bytes : List Byte) : Nat := (bytes.foldr (fun b acc => b.toNat + acc) 0) % 65536

/-- The exclusive OR of bytes: the check of a cue message (R149). -/
def xorCheck (bytes : List Byte) : Byte := bytes.foldr (fun b acc => b ^^^ acc) 0

/-- An arrangement of a list chosen by a number: every order of the list is the arrangement of some number. A list of
at most one member has only one, whatever the number. -/
def arrange {α : Type} : Nat → List α → List α
  | _, [] => []
  | _, [x] => [x]
  | k, x :: y :: rest => (arrange (k / (rest.length + 2)) (y :: rest)).insertIdx (k % (rest.length + 2)) x

/-- The place of a number in a list, counted from the head. -/
def placeOf (a : Nat) : List Nat → Option Nat
  | [] => none
  | b :: rest => if b = a then some 0 else (placeOf a rest).map (· + 1)

end Sys2Proof.Machine
end

