-- ==== Sys2Proof/Machine/Types.lean ====
section
/-! DEFINITION. The data types of the block's state: what each unit holds, named as the spec names it. -/

namespace Sys2Proof.Machine

/-! ## Memory Path (chapter 1) -/

/-- A station processor access: a 30-bit word address (log entry 5), direction, data and byte enables. -/
structure Access where
  addr : BitVec 30
  write : Bool
  data : Word
  lanes : BitVec 4
deriving DecidableEq, Repr

/-- The requester of an own read (R11). -/
inductive ReadSource where
  | load
  | fetch
deriving DecidableEq, Repr

/-- An own-read request: the byte address of the word, and the source (R11). -/
structure ReadReq where
  addr : Nat
  source : ReadSource
deriving DecidableEq, Repr

/-- The access in flight on the memory-side port, which carries one at a time (chapter 1, section 1.6). -/
inductive Port where
  | idle
  | processor (a : Access)
  | ownRead (r : ReadReq)
  | writeBack (offset : Nat) (data : Word)
deriving DecidableEq, Repr

/-- A member of the write-back set: the word's offset, and the change since start held against it (R14). -/
structure WbEntry where
  offset : Nat
  changed : Bool
deriving DecidableEq, Repr

/-- The kind of own access started last (R16). -/
inductive OwnKind where
  | read
  | writeBack
deriving DecidableEq, Repr

/-- The arbitration mode (R18). -/
inductive MemMode where
  | normal
  | urgent
deriving DecidableEq, Repr

/-- The source of an own-access fault (R19). -/
inductive FaultSource where
  | load
  | fetch
  | writeback
deriving DecidableEq, Repr

/-- The capture the fault word holds (R19). The direction is WRITE exactly for source WRITEBACK. -/
structure Capture where
  addr : Nat
  write : Bool
  source : FaultSource
  more : Bool
deriving DecidableEq, Repr

/-- A completion given on the processor-side port (R3, R8). -/
inductive Answer where
  | readDone (data : Word) (err : Bool)
  | writeDone (err : Bool)
deriving DecidableEq, Repr

/-- The Memory Path (R21). `noted` is the model's own (log entry 24): the words whose content the event in progress has
changed on its way, in the order of the changes. `settle` marks them and takes them off the list again. -/
structure MemPath where
  port : Port
  waiting : Option Access
  answer : Option Answer
  reads : List ReadReq
  writeBacks : List WbEntry
  lastOwn : OwnKind
  counter : Nat
  mode : MemMode
  fault : Option Capture
  noted : List Nat
deriving DecidableEq, Repr

/-! ## Slot Table (chapters 2 and 4) -/

/-- The operating day a record names (chapter 2, section 2.1). -/
inductive DaySelect where
  | current
  | next
  | previous
deriving DecidableEq, Repr

/-- The applied record of a slot (R22): validated, with the delay as clamped. -/
structure Record where
  service : Nat
  operator : Nat
  destination : Nat
  via : Nat
  minute : Nat
  day : DaySelect
  platform : Nat
  delay : Nat
  cancelled : Bool
  announce : Bool
  formation : Nat
  remark : Nat
deriving DecidableEq, Repr

/-- The derived fields a slot holds (R27, R64). -/
structure Keys where
  ks : Nat
  offset : Int
  ke : Int
deriving DecidableEq, Repr

/-- The slot states (section 2.5). -/
inductive SlotState where
  | vacant
  | scheduled
  | boarding
  | departing
  | cancelled
  | expired
deriving DecidableEq, Repr

/-- The last result of the status word (R40). -/
inductive LastResult where
  | taken
  | badTime
  | badDay
  | badPlatform
  | badDestination
  | loadFault
deriving DecidableEq, Repr

/-- One departure slot. `staging` holds record words 0 to 4 and then the commit word (R23).
`announced`, `lastCued` and `highlight` are the Service Change Logic's share of it (section 7.1). -/
structure Slot where
  staging : List Word
  applied : Option Record
  keys : Option Keys
  state : SlotState
  lastResult : LastResult
  capped : Bool
  generation : Nat
  announced : Nat
  lastCued : Option Nat
  highlight : Option Nat
deriving DecidableEq, Repr

/-- A board's footnote record: slot, to-platform and remaining seconds (R81). -/
structure Footnote where
  slot : Nat
  toPlatform : Nat
  left : Nat
deriving DecidableEq, Repr

/-! ## Time Base (chapter 3) -/

/-- The clock states (section 3.2). -/
inductive ClockState where
  | unset
  | running
  | locked
  | freerun
deriving DecidableEq, Repr

/-- The clock sources (section 3.2). -/
inductive ClockSource where
  | internal
  | masterSecond
  | masterMinute
deriving DecidableEq, Repr

/-- The Time Base (R62). `loss` is the duration, in milliseconds, the running loss timer was started with. -/
structure Clock where
  t : Nat
  state : ClockState
  source : ClockSource
  roll : Nat
  slew : Int
  holdNext : Bool
  loss : Option Nat
deriving DecidableEq, Repr

/-! ## Parameters in force (R175) -/

/-- The cue link mode (R143). -/
inductive LinkMode where
  | off
  | acknowledged
  | busy
  | timed
deriving DecidableEq, Repr

/-- The configurable quantities in force, but for the roll minute and the source, which the Time Base holds. -/
structure Params where
  w : Nat
  p : Nat
  firstWall : Nat
  clockDrop : Nat
  tickerDrop : Nat
  boardBase : Nat
  lead : Nat
  window : Nat
  dwell : Nat
  hold : Nat
  changeHold : Nat
  horizon : Nat
  threshold : Nat
  step : Nat
  starvation : Nat
  memLimit : Nat
  gap : Nat
  byteLimit : Nat
  spacing : Nat
  busyLimit : Nat
  repeats : Nat
  interval : Nat
  linkMode : LinkMode
deriving DecidableEq, Repr

/-! ## Display link (chapters 5 and 6) -/

/-- The role of a display link address (R94). -/
inductive Role where
  | none
  | wall (row : Nat)
  | clock
  | ticker
  | board (platform : Nat)
deriving DecidableEq, Repr

/-- An entry of the drop table (R95). `shown` is the shown slot with the shown platform. -/
structure Drop where
  role : Role
  online : Bool
  failures : Nat
  shown : Option (Nat × Nat)
deriving DecidableEq, Repr

/-- A mark of the pending set (R97). `seq` is its place in the common order of joining (R111). -/
structure Mark where
  drop : Nat
  urgent : Bool
  cause : Option Nat
  seq : Nat
deriving DecidableEq, Repr

/-- A request of the probe list (R111), with its place in the common order of joining. -/
structure Probe where
  drop : Nat
  seq : Nat
deriving DecidableEq, Repr

/-- The wall mode (section 6.3). -/
inductive WallMode where
  | run
  | hold
  | freeze
deriving DecidableEq, Repr

/-- The frame kinds (section 5.6). -/
inductive FrameKind where
  | row
  | board
  | clock
  | ticker
  | blank
  | probe
deriving DecidableEq, Repr

/-- The frame in flight (R106). `shown` is the slot and platform item of a ROW frame; `urgent` and `cause` are those
of the mark taken, for a re-mark (R109); `discard` says that the drop has lost or changed its role since (R96);
`window` that the reply window is open (R107). -/
structure Frame where
  drop : Nat
  kind : FrameKind
  shown : Option (Nat × Nat)
  urgent : Bool
  cause : Option Nat
  forStep : Bool
  discard : Bool
  bytes : List Byte
  window : Bool
deriving DecidableEq, Repr

/-- The STEP FRAME in execution (R105): none, waiting for the link, or with its frame in flight. -/
inductive StepPhase where
  | none
  | waiting
  | sending
deriving DecidableEq, Repr

/-- The Frame Scheduler and Display Link Port (R114). `probeTimer` is the period in seconds while it runs. -/
structure Display where
  drops : List Drop
  marks : List Mark
  probes : List Probe
  joinSeq : Nat
  pointer : Nat
  probeTimer : Option Nat
  mode : WallMode
  frame : Option Frame
  step : StepPhase
deriving DecidableEq, Repr

/-- The remark of a slot (R87). -/
inductive Remark where
  | none
  | delayed (d : Nat)
  | cancelled
  | boarding
  | departing
  | changed
deriving DecidableEq, Repr

/-- The content of a slot (R85). `countdown` and `added` are 0 for none. -/
structure Content where
  operator : Nat
  service : Nat
  destination : Nat
  via : Nat
  hh : Nat
  mm : Nat
  expected : Bool
  added : Nat
  countdown : Nat
  platform : Nat
  remark : Remark
  remarkCode : Nat
  formation : Nat
  highlight : Bool
  flash : Bool
deriving DecidableEq, Repr

/-! ## Announcement cues (chapter 8) -/

/-- The cue kinds (R130). -/
inductive CueKind where
  | platformChange
  | cancellation
  | delay
  | boarding
  | notice
  | general
  | emergency
deriving DecidableEq, Repr

/-- The cue classes, SERVICE lowest and EMERGENCY highest (R130). -/
inductive CueClass where
  | service
  | change
  | emergency
deriving DecidableEq, Repr

/-- A not-before time in seconds of the internal reference, and whether it has been seen to pass (log entry 10). -/
structure NotBefore where
  time : Nat
  passed : Bool
deriving DecidableEq, Repr

/-- A cue record (R130). Its class follows from its kind. -/
structure Cue where
  kind : CueKind
  slot : Option Nat
  service : Nat
  destination : Nat
  expected : Nat
  platform : Nat
  fromPlatform : Nat
  delay : Nat
  phrase : Nat
  repeatsLeft : Nat
  repeatCount : Nat
  notBefore : Option NotBefore
  aborts : Nat
  order : BitVec 32
deriving DecidableEq, Repr

/-- The cue link states (section 8.6). -/
inductive LinkState where
  | ready
  | sending
  | speaking
  | gap
  | stalled
  | off
deriving DecidableEq, Repr

/-- The condition of the record of a message in flight (R136). -/
inductive Condition where
  | unchanged
  | replaced
  | removed
deriving DecidableEq, Repr

/-- How far the acknowledge pulse of the present byte has come since its strobe began (R144). -/
inductive AckPhase where
  | none
  | risen
  | done
deriving DecidableEq, Repr

/-- The message in flight (R136): the record as rendered, the bytes, the byte being sent, the record's condition,
whether the slot has become VACANT or EXPIRED since (R115), and the mode and timing it began under (R143). -/
structure Message where
  cue : Cue
  bytes : List Byte
  index : Nat
  condition : Condition
  gone : Bool
  mode : LinkMode
  byteLimit : Nat
  spacing : Nat
  ack : AckPhase
  pulseOver : Bool
deriving DecidableEq, Repr

/-- The Cue Queue and Cue Link Port (R150). A running timer holds the duration in seconds it was started with. -/
structure CueUnit where
  queue : List Cue
  next : BitVec 32
  link : LinkState
  msg : Option Message
  gapTimer : Option Nat
  busyTimer : Option Nat
  strobe : Bool
  dataOut : Byte
  ackIn : Bool
  busyIn : Bool
deriving DecidableEq, Repr

/-! ## Notices (chapter 9) -/

/-- The states of a notice entry (R151). -/
inductive EntryState where
  | empty
  | fetching
  | active
deriving DecidableEq, Repr

/-- The notice classes (R151). -/
inductive NoticeClass where
  | info
  | delay
  | disruption
deriving DecidableEq, Repr

/-- The result of a notice entry (R151). -/
inductive NoticeResult where
  | none
  | accepted
  | ok
  | truncated
  | badAlign
  | outOfRange
  | memoryFault
  | emptyText
  | withdrawn
  | expired
deriving DecidableEq, Repr

/-- An entry of the notice table (R151). -/
structure Entry where
  id : Nat
  state : EntryState
  cls : NoticeClass
  dwell : Nat
  minutes : Nat
  phrase : Nat
  text : List Byte
  replacing : Bool
  result : NoticeResult
  errAddr : Nat
deriving DecidableEq, Repr

/-- A fetch request (R154). -/
structure FetchReq where
  entry : Nat
  id : Nat
  cls : NoticeClass
  dwell : Nat
  lifetime : Nat
  phrase : Nat
  chain : Nat
deriving DecidableEq, Repr

/-- What the next answer of a fetch is: word 0, 1 or 2 of a descriptor, or a word of text (R155). -/
inductive FetchStage where
  | descriptor (k : Nat)
  | text
deriving DecidableEq, Repr

/-- The progress of a fetch (R155): the byte address of the read requested, what it reads, the fragment count, the text
collected, the next address of the descriptor, the length of the fragment, the address of the next text byte, the bytes
still to take, and whether the fragment had more bytes than are taken (R158). -/
structure Fetch where
  addr : Nat
  stage : FetchStage
  count : Nat
  buf : List Byte
  nextAddr : Nat
  len : Nat
  pos : Nat
  left : Nat
  more : Bool
deriving DecidableEq, Repr

/-- The Notice Unit (R151, R154, R155, R164). `orphan` says that the read of an abandoned fetch is not yet answered. -/
structure NoticeUnit where
  entries : List Entry
  queue : List FetchReq
  fetch : Option Fetch
  orphan : Bool
  rotIndex : Nat
  shown : Option Nat
  dwellTimer : Option Nat
deriving DecidableEq, Repr

/-! ## Command area, attention events and part state (chapter 10) -/

/-- The Command Area Unit (R165, R168), with the captures of the configuration words (R6). -/
structure CommandArea where
  staging : List Word
  exec : Option (List Word)
  response : List Word
  count : BitVec 32
  config : List Word
deriving DecidableEq, Repr

/-- The Attention Unit's flags, one bit per class; a mask bit of 1 unmasks (R170, R171, section 11.3). -/
structure Attention where
  pending : BitVec 14
  request : BitVec 14
  mask : BitVec 14
deriving DecidableEq, Repr

/-- The part states (section 10.3). -/
inductive PartState where
  | starting
  | loading
  | running
  | halted
deriving DecidableEq, Repr

/-- What the requester of source LOAD is doing: nothing, the configuration reading with its answers so far (R174), or
the table load, reading this word (0..4 a record word, 5 the commit word) of this slot (R41). -/
inductive Reading where
  | idle
  | config (answers : List Word)
  | table (slot word : Nat)
deriving DecidableEq, Repr

/-- The part state (R173, R175) and whether a configuration reading has completed without halting (R48). -/
structure Part where
  state : PartState
  reading : Reading
  clamped : Bool
  configured : Bool
deriving DecidableEq, Repr

end Sys2Proof.Machine
end

