-- ==== Sys2Proof/Machine/ResetValues.lean ====
section
/-! DEFINITION. The value each unit has after hard reset, and the default layout of the display link. -/

namespace Sys2Proof.Machine

/-- A slot after hard reset (R23, R38, R129). -/
def Slot.reset : Slot :=
  { staging := List.replicate 6 0, applied := none, keys := none, state := .vacant, lastResult := .taken,
    capped := false, generation := 0, announced := 0, lastCued := none, highlight := none }

/-- The parameters after hard reset: the defaults of R175. -/
def Params.reset : Params :=
  { w := 24, p := 16, firstWall := 0, clockDrop := 48, tickerDrop := 49, boardBase := 64, lead := 3, window := 10,
    dwell := 90, hold := 10, changeHold := 300, horizon := 45, threshold := 5, step := 5, starvation := 32,
    memLimit := 1024, gap := 4, byteLimit := 20, spacing := 10, busyLimit := 120, repeats := 1, interval := 60,
    linkMode := .acknowledged }

/-- The role an address has under a layout (R94). -/
def roleOf (q : Params) (a : Nat) : Role :=
  if q.firstWall ≤ a ∧ a < q.firstWall + q.w then .wall (a - q.firstWall)
  else if a = q.clockDrop then .clock
  else if a = q.tickerDrop then .ticker
  else if q.boardBase ≤ a ∧ a < q.boardBase + q.p then .board (a - q.boardBase + 1)
  else .none

/-- The 138 words of the class "part-owned, written back", in ascending offset (R2, R15). -/
def writtenBack : List Nat :=
  ((List.range 8).map fun k => 0x20 + 4 * k) ++ [0x80, 0x8C] ++ ((List.range 32).map fun k => 0x100 + 4 * k) ++
    ((List.range 96).map fun s => 0x1000 + 32 * s + 24)

/-- The Memory Path after hard reset (R21). -/
def MemPath.reset : MemPath :=
  { port := .idle, waiting := none, answer := none, reads := [],
    writeBacks := writtenBack.map fun o => { offset := o, changed := false }, lastOwn := .writeBack, counter := 0,
    mode := .normal, fault := none, noted := [] }

/-- The Time Base after hard reset (R62). -/
def Clock.reset : Clock :=
  { t := 0, state := .unset, source := .internal, roll := 180, slew := 0, holdNext := false, loss := none }

/-- A drop table entry for a role, ONLINE with nothing shown (R95). -/
def Drop.fresh (r : Role) : Drop := { role := r, online := true, failures := 0, shown := none }

/-- The display link after hard reset, its probe timer not yet started (R114). -/
def Display.reset : Display :=
  { drops := (List.range 128).map fun a => Drop.fresh (roleOf Params.reset a), marks := [], probes := [],
    joinSeq := 0, pointer := 127, probeTimer := none, mode := .run, frame := none, step := .none }

/-- The Cue Queue and Cue Link Port after hard reset (R150), with the levels its two inputs have. -/
def CueUnit.reset (ackIn busyIn : Bool) : CueUnit :=
  { queue := [], next := 0, link := .ready, msg := none, gapTimer := none, busyTimer := none, strobe := false,
    dataOut := 0, ackIn := ackIn, busyIn := busyIn }

/-- A notice entry after hard reset (R151). -/
def Entry.reset : Entry :=
  { id := 0, state := .empty, cls := .info, dwell := 0, minutes := 0, phrase := 0, text := [], replacing := false,
    result := .none, errAddr := 0 }

/-- The Notice Unit after hard reset (R151, R154, R164). -/
def NoticeUnit.reset : NoticeUnit :=
  { entries := List.replicate 8 Entry.reset, queue := [], fetch := none, orphan := false, rotIndex := 7,
    shown := none, dwellTimer := none }

/-- The Command Area Unit after hard reset (R165, R168; the configuration captures by log entry 6). -/
def CommandArea.reset : CommandArea :=
  { staging := List.replicate 7 0, exec := none, response := List.replicate 7 0, count := 0,
    config := List.replicate 16 0 }

/-- The Attention Unit after hard reset (R170, R171). -/
def Attention.reset : Attention := { pending := 0, request := 0, mask := 0 }

/-- The part state after hard reset (R173, R178). -/
def Part.reset : Part := { state := .starting, reading := .idle, clamped := false, configured := false }

end Sys2Proof.Machine
end

