-- ==== Sys2Proof/Machine/State.lean ====
section
/-! DEFINITION. The state of the CB4120, everything the spec gives the part, and its value after hard reset. -/

namespace Sys2Proof.Machine

/-- The state of the part. `pending` is the queue of commands waiting, first in, first out; `refTime` counts the
seconds of the internal reference since the release of the pin (R48); `freeCount` counts the free choices of order
taken (log entry 12). -/
structure State where
  resetPin : Bool
  strap : BitVec 4
  mem : MemPath
  slots : List Slot
  rowMap : List Nat
  footnotes : List (Option Footnote)
  clock : Clock
  params : Params
  display : Display
  cues : CueUnit
  notices : NoticeUnit
  cmd : CommandArea
  att : Attention
  part : Part
  refTime : Nat
  freeCount : Nat
  pending : List Instr
deriving DecidableEq, Repr

/-- The reasons a step could stop with a fault. There is none: the spec gives every event of the table an effect or
says that it is ignored, and what it calls faults (R19, R42, R159, R173) are state. No step raises a fault (safe). -/
inductive Fault where
deriving DecidableEq, Repr

/-- The reasons a command could be refused. -/
inductive Refusal where
  /-- The host's: raised by an arm of `exec` whose command has no meaning yet. No arm raises it (safe). -/
  | notModelled (mnemonic : String)
deriving DecidableEq, Repr

/-- The part with the hard reset pin asserted: the values the chapters' tables give after hard reset, for the straps
sampled (R1). The input levels of the cue link, the count of free choices and the queue of commands are not the
part's to reset (log entries 22 and 33). -/
def State.afterReset (strap : BitVec 4) (ackIn busyIn : Bool) (freeCount : Nat) (pending : List Instr) : State :=
  { resetPin := true, strap := strap, mem := .reset, slots := List.replicate 96 .reset, rowMap := [],
    footnotes := List.replicate 32 none, clock := .reset, params := .reset, display := .reset,
    cues := .reset ackIn busyIn, notices := .reset, cmd := .reset, att := .reset, part := .reset, refTime := 0,
    freeCount := freeCount, pending := pending }

/-- The machine right after hard reset: the pin still asserted, straps 0, inputs low (log entry 3), no command waiting.
HARD_RESET_RELEASE starts it. -/
def State.reset : State := State.afterReset 0 false false 0 []

end Sys2Proof.Machine
end

