-- ==== Sys2Proof/Machine/Operands.lean ====
section
/-! DEFINITION. The operand forms: the classes of the managed region (R1, R2) and the fields of every input word
(chapter 11): departure records, commit words, command words, the configuration block, fragment descriptors. Bits of no
field are ignored (R179). -/

namespace Sys2Proof.Machine

/-! ## Addresses and word classes (R1, R2) -/

/-- The strap base: the straps multiplied by 4 MiB (R1). -/
def strapBase (strap : BitVec 4) : Nat := strap.toNat * 0x400000

/-- The byte address of an access. -/
def Access.byteAddr (a : Access) : Nat := 4 * a.addr.toNat

/-- The classes of R2. `plain` stands for a plain word inside the window and for every word outside it. -/
inductive WordClass where
  | plain
  | command (k : Nat)
  | trigger
  | response (k : Nat)
  | config (k : Nat)
  | clock
  | event
  | fault
  | summary
  | notice (entry word : Nat)
  | record (slot word : Nat)
  | status (slot : Nat)
  | commit (slot : Nat)
deriving DecidableEq, Repr

/-- The class of the word at an offset of the managed region (the table of R2). -/
def classOf (offset : Nat) : WordClass :=
  if offset < 0x1C then .command (offset / 4)
  else if offset < 0x20 then .trigger
  else if offset < 0x40 then .response ((offset - 0x20) / 4)
  else if offset < 0x80 then .config ((offset - 0x40) / 4)
  else if offset < 0x84 then .clock
  else if offset < 0x88 then .event
  else if offset < 0x8C then .fault
  else if offset < 0x90 then .summary
  else if offset < 0x100 then .plain
  else if offset < 0x180 then .notice ((offset - 0x100) / 16) (offset % 16 / 4)
  else if offset < 0x1000 then .plain
  else if offset < 0x1C00 then
    if offset % 32 < 20 then .record ((offset - 0x1000) / 32) (offset % 32 / 4)
    else if offset % 32 < 24 then .plain
    else if offset % 32 < 28 then .status ((offset - 0x1000) / 32)
    else .commit ((offset - 0x1000) / 32)
  else .plain

/-- The class of the word a byte address names: by its offset inside the window, pass-through outside (R1). -/
def addrClass (strap : BitVec 4) (byteAddr : Nat) : WordClass :=
  if strapBase strap ≤ byteAddr ∧ byteAddr < strapBase strap + 0x4000 then classOf (byteAddr - strapBase strap)
  else .plain

/-- The offset of the event-mask word is word 9 of the configuration block (section 11.3). -/
def maskWordIndex : Nat := 9

/-- The two part-owned classes together (R2). -/
def WordClass.partOwned : WordClass → Bool
  | .response _ | .clock | .event | .fault | .summary | .notice _ _ | .status _ => true
  | _ => false

/-! ## Departure records (section 11.1) -/

/-- The commit word's valid field. -/
def commitValid (w : Word) : Bool := flag w 0
/-- The commit word's quiet field. -/
def commitQuiet (w : Word) : Bool := flag w 1
/-- The commit word's generation field. -/
def commitGeneration (w : Word) : Nat := field w 8 8

/-- A word of a slot's staging copy: 0..4 the record words, 5 the commit word (R23). -/
def stagedWord (staging : List Word) (k : Nat) : Word := staging.getD k 0

/-- The scheduled minute as written, 0..2047. -/
def rawMinute (staging : List Word) : Nat := field (stagedWord staging 2) 0 11
/-- The day select as written, 0..3. -/
def rawDay (staging : List Word) : Nat := field (stagedWord staging 2) 12 2
/-- The platform as written, 0..63. -/
def rawPlatform (staging : List Word) : Nat := field (stagedWord staging 2) 16 6
/-- The destination code as written. -/
def rawDestination (staging : List Word) : Nat := field (stagedWord staging 1) 0 12
/-- The delay as written, 0..1023. -/
def rawDelay (staging : List Word) : Nat := field (stagedWord staging 3) 0 10

/-- The day select codes (section 11.1). -/
def dayOf : Nat → DaySelect
  | 1 => .next
  | 2 => .previous
  | _ => .current

/-- The record a taken commit applies: the staged fields, with the delay clamped to 719 (R26, R27). -/
def recordOf (staging : List Word) : Record :=
  { service := field (stagedWord staging 0) 0 16
    operator := field (stagedWord staging 0) 16 8
    destination := rawDestination staging
    via := field (stagedWord staging 1) 16 12
    minute := rawMinute staging
    day := dayOf (rawDay staging)
    platform := rawPlatform staging
    delay := min (rawDelay staging) 719
    cancelled := flag (stagedWord staging 3) 12
    announce := flag (stagedWord staging 3) 13
    formation := field (stagedWord staging 3) 16 8
    remark := field (stagedWord staging 4) 0 10 }

/-- Validation (R25): the code of the first check that fails, or none. -/
def refusalOf (platforms : Nat) (staging : List Word) : Option LastResult :=
  if 1440 ≤ rawMinute staging then some .badTime
  else if rawDay staging = 3 then some .badDay
  else if platforms < rawPlatform staging then some .badPlatform
  else if rawDestination staging = 0 then some .badDestination
  else none

/-! ## Command words (section 11.2) -/

/-- A word of the command: 0..6. -/
def commandWord (words : List Word) (k : Nat) : Word := words.getD k 0
/-- The tag of a command. -/
def commandTag (words : List Word) : Nat := field (commandWord words 0) 0 8
/-- The command code. -/
def commandCode (words : List Word) : Nat := field (commandWord words 0) 8 8
/-- The ACK_WANTED flag. -/
def ackWanted (words : List Word) : Bool := flag (commandWord words 0) 16

/-! ## Fragment descriptors (section 11.5) -/

/-- The length of a fragment: bits 15:0 of descriptor word 1. -/
def fragmentLength (w : Word) : Nat := field w 0 16

/-! ## The configuration block (section 11.3, R175) -/

/-- A value brought into a range: to the nearer limit. -/
def clamp (lo hi x : Nat) : Nat := if x < lo then lo else if hi < x then hi else x

/-- A word of the configuration block, 0..15. -/
def configWord (words : List Word) (k : Nat) : Word := words.getD k 0

/-- Source codes; any other is taken as INTERNAL (R175). -/
def sourceOf : Nat → ClockSource
  | 1 => .masterSecond
  | 2 => .masterMinute
  | _ => .internal

/-- Link mode codes; any other is taken as OFF (R175). -/
def linkModeOf : Nat → LinkMode
  | 1 => .acknowledged
  | 2 => .busy
  | 3 => .timed
  | _ => .off

/-- A ranged field of the configuration block: word, bit, width, lower and upper limit. -/
structure ConfigField where
  word : Nat
  lo : Nat
  len : Nat
  least : Nat
  most : Nat
deriving DecidableEq, Repr

/-- The value read for a field. -/
def ConfigField.raw (f : ConfigField) (words : List Word) : Nat := field (configWord words f.word) f.lo f.len
/-- The value as brought into range. -/
def ConfigField.value (f : ConfigField) (words : List Word) : Nat := clamp f.least f.most (f.raw words)

/-- The ranged fields, in the order of section 11.3's table, with the ranges of R175. -/
def cfW : ConfigField := ⟨0, 0, 8, 8, 48⟩
/-- P. -/
def cfP : ConfigField := ⟨0, 8, 8, 1, 32⟩
/-- First wall drop. -/
def cfFirstWall : ConfigField := ⟨1, 0, 8, 0, 127⟩
/-- Clock drop. -/
def cfClockDrop : ConfigField := ⟨1, 8, 8, 0, 127⟩
/-- Ticker drop. -/
def cfTickerDrop : ConfigField := ⟨1, 16, 8, 0, 127⟩
/-- Board base. -/
def cfBoardBase : ConfigField := ⟨1, 24, 8, 0, 127⟩
/-- Roll minute. -/
def cfRoll : ConfigField := ⟨2, 0, 16, 0, 1439⟩
/-- Boarding lead. -/
def cfLead : ConfigField := ⟨2, 16, 8, 0, 30⟩
/-- Countdown window. -/
def cfWindow : ConfigField := ⟨2, 24, 8, 0, 30⟩
/-- Departing dwell. -/
def cfDwell : ConfigField := ⟨3, 0, 16, 30, 600⟩
/-- Cancelled hold. -/
def cfHold : ConfigField := ⟨3, 16, 8, 1, 60⟩
/-- Change hold. -/
def cfChangeHold : ConfigField := ⟨4, 0, 16, 30, 1800⟩
/-- Announce horizon. -/
def cfHorizon : ConfigField := ⟨4, 16, 8, 1, 120⟩
/-- Delay threshold. -/
def cfThreshold : ConfigField := ⟨5, 0, 8, 1, 60⟩
/-- Delay step. -/
def cfStep : ConfigField := ⟨5, 8, 8, 1, 60⟩
/-- Cue repeats R. -/
def cfRepeats : ConfigField := ⟨5, 16, 8, 0, 3⟩
/-- Starvation limit. -/
def cfStarvation : ConfigField := ⟨6, 0, 8, 4, 255⟩
/-- Memory limit, units of 64 KiB. -/
def cfMemLimit : ConfigField := ⟨6, 16, 16, 1, 1024⟩
/-- Cue gap. -/
def cfGap : ConfigField := ⟨7, 0, 8, 0, 30⟩
/-- Byte limit. -/
def cfByteLimit : ConfigField := ⟨7, 8, 8, 1, 255⟩
/-- Timed spacing. -/
def cfSpacing : ConfigField := ⟨7, 16, 8, 1, 255⟩
/-- Busy limit. -/
def cfBusyLimit : ConfigField := ⟨8, 0, 16, 10, 600⟩
/-- Repeat interval. -/
def cfInterval : ConfigField := ⟨8, 16, 16, 10, 300⟩

/-- Every ranged field. -/
def configFields : List ConfigField :=
  [cfW, cfP, cfFirstWall, cfClockDrop, cfTickerDrop, cfBoardBase, cfRoll, cfLead, cfWindow, cfDwell, cfHold,
    cfChangeHold, cfHorizon, cfThreshold, cfStep, cfRepeats, cfStarvation, cfMemLimit, cfGap, cfByteLimit, cfSpacing,
    cfBusyLimit, cfInterval]

/-- The source code read. -/
def rawSource (words : List Word) : Nat := field (configWord words 0) 16 8
/-- The link mode code read. -/
def rawLinkMode (words : List Word) : Nat := field (configWord words 0) 24 8

/-- Whether any parameter was brought into range (CONFIG_CLAMPED, R175). -/
def configClamped (words : List Word) : Bool :=
  configFields.any (fun f => decide (f.value words ≠ f.raw words)) || decide (2 < rawSource words) ||
    decide (3 < rawLinkMode words)

/-- The parameters a configuration block gives, as brought into range (R175). -/
def paramsOf (words : List Word) : Params :=
  { w := cfW.value words, p := cfP.value words, firstWall := cfFirstWall.value words
    clockDrop := cfClockDrop.value words, tickerDrop := cfTickerDrop.value words
    boardBase := cfBoardBase.value words, lead := cfLead.value words, window := cfWindow.value words
    dwell := cfDwell.value words, hold := cfHold.value words, changeHold := cfChangeHold.value words
    horizon := cfHorizon.value words, threshold := cfThreshold.value words, step := cfStep.value words
    starvation := cfStarvation.value words, memLimit := cfMemLimit.value words, gap := cfGap.value words
    byteLimit := cfByteLimit.value words, spacing := cfSpacing.value words, busyLimit := cfBusyLimit.value words
    repeats := cfRepeats.value words, interval := cfInterval.value words
    linkMode := linkModeOf (rawLinkMode words) }

/-- The W + 2 + P role addresses of a layout (R94). -/
def roleAddresses (q : Params) : List Nat :=
  (List.range q.w).map (q.firstWall + ·) ++ [q.clockDrop, q.tickerDrop] ++ (List.range q.p).map (q.boardBase + ·)

/-- The three tests of R175: a configuration is valid when none of them holds. -/
def configValid (strap : BitVec 4) (q : Params) : Bool :=
  decide (q.firstWall + q.w - 1 ≤ 127) && decide (q.boardBase + q.p - 1 ≤ 127) &&
    decide (roleAddresses q).Nodup && decide (strapBase strap + 0x4000 ≤ q.memLimit * 0x10000)

end Sys2Proof.Machine
end

