-- ==== Sys2Proof/Machine/Arith.lean ====
section
/-! DEFINITION. The departure time arithmetic (chapter 4) and the state decisions built on it (R28, R32). -/

namespace Sys2Proof.Machine

/-- The clock is set when its state is RUNNING, LOCKED or FREERUN (R28). -/
def Clock.isSet (c : Clock) : Bool := decide (c.state ≠ .unset)

/-- The service minute N (R46). -/
def Clock.minute (c : Clock) : Nat := c.t / 60

/-- Civil time in seconds after midnight (R46). -/
def Clock.civil (c : Clock) : Nat := (c.t + 60 * c.roll) % 86400

/-- The day offset of a day select (R27). -/
def DaySelect.offset : DaySelect → Int
  | .current => 0
  | .next => 1
  | .previous => -1

/-- The derived fields of a record under a roll minute (R64): Ks = (s - r) mod 1440, Ke = Ks + 1440 o + d. -/
def keysOf (roll : Nat) (r : Record) : Keys :=
  { ks := (r.minute + 1440 - roll) % 1440
    offset := r.day.offset
    ke := ((r.minute + 1440 - roll) % 1440 : Nat) + 1440 * r.day.offset + r.delay }

/-- The expected civil minute E (R65). -/
def Record.expected (r : Record) : Nat := (r.minute + r.delay) % 1440

/-- The remaining seconds Rsec = 60 Ke - T (R66). -/
def remaining (ke : Int) (c : Clock) : Int := 60 * ke - c.t

/-- The countdown C = Ke - N (R67). -/
def countdown (ke : Int) (c : Clock) : Int := ke - c.minute

/-- The state decision of R28, which R32 uses for a set clock. -/
def stateFor (q : Params) (c : Clock) (cancelled : Bool) (ke : Int) : SlotState :=
  if cancelled then
    if c.isSet ∧ ke + q.hold ≤ c.minute then .expired else .cancelled
  else if ¬ c.isSet then .scheduled
  else if remaining ke c ≤ -(q.dwell : Int) then .expired
  else if countdown ke c ≤ 0 then .departing
  else if countdown ke c ≤ q.lead then .boarding
  else .scheduled

/-- The slots the row map holds: SCHEDULED, BOARDING, DEPARTING, CANCELLED (section 2.5). -/
def SlotState.active : SlotState → Bool
  | .scheduled | .boarding | .departing | .cancelled => true
  | .vacant | .expired => false

/-- How far along its course a state lies (R32): SCHEDULED, BOARDING, DEPARTING, EXPIRED; CANCELLED, EXPIRED. -/
def SlotState.course : SlotState → Nat
  | .vacant => 0
  | .scheduled => 0
  | .cancelled => 0
  | .boarding => 1
  | .departing => 2
  | .expired => 3

/-- The time-driven move of a slot (R32): the state the time gives, if it lies further along the slot's course. -/
def dueMove (q : Params) (c : Clock) (x : Slot) : Option SlotState :=
  match x.applied, x.keys with
  | some r, some k =>
    if x.state.active ∧ x.state.course < (stateFor q c r.cancelled k.ke).course then
      some (stateFor q c r.cancelled k.ke)
    else none
  | _, _ => none

/-- The announce window (R72). -/
def announceOpen (q : Params) (c : Clock) (r : Record) (ke : Int) : Bool :=
  r.announce && c.isSet && decide (0 < remaining ke c) && decide (countdown ke c ≤ q.horizon)

/-- The size of the difference of two delays. -/
def delayGap (a b : Nat) : Nat := (a - b) + (b - a)

/-- The delay cue condition (R72). -/
def delayCueDue (q : Params) (c : Clock) (r : Record) (ke : Int) (last : Option Nat) : Bool :=
  announceOpen q c r ke && decide (q.threshold ≤ r.delay) &&
    match last with
    | none => true
    | some l => decide (q.step ≤ delayGap r.delay l)

/-- The rebasing of a slot at a day roll (R71): o and Ke fall together, or the slot is forced to EXPIRED. -/
def Slot.rebase (x : Slot) : Slot :=
  match x.keys with
  | some k =>
    if x.state.active then
      if k.offset = -1 then { x with state := .expired }
      else { x with keys := some { k with offset := k.offset - 1, ke := k.ke - 1440 } }
    else x
  | none => x

/-- The ordering of slots on the wall (R70): by Ke, then platform, then slot index. -/
def keyLess (ke₁ : Int) (p₁ i₁ : Nat) (ke₂ : Int) (p₂ i₂ : Nat) : Bool :=
  decide (ke₁ < ke₂) || (decide (ke₁ = ke₂) && (decide (p₁ < p₂) || (decide (p₁ = p₂) && decide (i₁ < i₂))))

end Sys2Proof.Machine
end

