-- ==== Sys2Proof/Machine/Flags.lean ====
section
/-! DEFINITION. The event flags of the Attention Unit: pending, request and mask, and the attention line
(section 10.2). -/

namespace Sys2Proof.Machine

/-- The fourteen event classes, in the order of the table of section 10.2. -/
inductive EventClass where
  | started
  | loadDone
  | commandTaken
  | commandDone
  | mailboxOverrun
  | protectedWrite
  | memoryFault
  | noticeDone
  | dropOffline
  | dropOnline
  | cueDropped
  | cueLinkChange
  | clockChange
  | dayRoll
deriving DecidableEq, Repr

/-- The bit of a class in the event word and the event mask (section 11.3). -/
def EventClass.bit : EventClass → Nat
  | .started => 0
  | .loadDone => 1
  | .commandTaken => 2
  | .commandDone => 3
  | .mailboxOverrun => 4
  | .protectedWrite => 5
  | .memoryFault => 6
  | .noticeDone => 7
  | .dropOffline => 8
  | .dropOnline => 9
  | .cueDropped => 10
  | .cueLinkChange => 11
  | .clockChange => 12
  | .dayRoll => 13

/-- The flag word with only this class's bit. -/
def EventClass.flag (c : EventClass) : BitVec 14 := 1#14 <<< c.bit

/-- An event of a class is pended (R170): its pending flag is set, and its request flag if it is not masked. -/
def Attention.pend (c : EventClass) (a : Attention) : Attention :=
  { a with pending := a.pending ||| c.flag, request := a.request ||| (c.flag &&& a.mask) }

/-- The attention line is asserted while any request flag is set (R170). -/
def Attention.line (a : Attention) : Bool := decide (a.request ≠ 0)

/-- A new mask (the table of R171): a class unmasked is requested if pending, a class masked loses its request, every
other class stays. -/
def Attention.setMask (m : BitVec 14) (a : Attention) : Attention :=
  { a with mask := m, request := (a.request &&& ~~~(a.mask ^^^ m)) ||| ((a.mask ^^^ m) &&& m &&& a.pending) }

/-- A write of the event-mask word, merged lane by lane into the mask (R6, R171; bits 31:14 merge into no flag). -/
def Attention.writeMask (data : Word) (lanes : BitVec 4) (a : Attention) : Attention :=
  a.setMask ((mergeLanes (a.mask.setWidth 32) data lanes).setWidth 14)

/-- The event word: the request flags (R172). -/
def Attention.word (a : Attention) : Word := a.request.setWidth 32

/-- The acknowledgement of a read of the event word (R172): the classes returned lose both flags. -/
def Attention.acknowledge (a : Attention) : Attention :=
  { a with pending := a.pending &&& ~~~a.request, request := 0 }

/-- An event of a class is pended in the part. -/
def pend (c : EventClass) (s : State) : State := { s with att := s.att.pend c }

/-- An event of a class is pended if its condition holds. -/
def pendIf (b : Bool) (c : EventClass) (s : State) : State := { s with att := if b then s.att.pend c else s.att }

end Sys2Proof.Machine
end

