-- ==== Sys2Proof/Machine/Ops.lean ====
section
/-! DEFINITION. The named operations over the part's tables: slots, row map, boards, drops, notice entries, the
write-back set, and the completion of a command. -/

namespace Sys2Proof.Machine

/-! ## Slots -/

/-- A slot of the Slot Table. -/
def slotAt (s : State) (i : Nat) : Slot := s.slots.getD i .reset

/-- A slot replaced. -/
def setSlot (i : Nat) (x : Slot) (s : State) : State := { s with slots := s.slots.set i x }

/-- A slot changed. -/
def modSlot (i : Nat) (f : Slot → Slot) (s : State) : State := setSlot i (f (slotAt s i)) s

/-- The expected key a slot holds; 0 where it holds none. -/
def keOf (s : State) (i : Nat) : Int := ((slotAt s i).keys.map (·.ke)).getD 0

/-- The applied platform of a slot; 0 where it has no applied record. -/
def platformOf (s : State) (i : Nat) : Nat := ((slotAt s i).applied.map (·.platform)).getD 0

/-! ## Row map (R74 to R76) -/

/-- The ordering key of slot i is less than that of slot j (R70). -/
def before (s : State) (i j : Nat) : Bool := keyLess (keOf s i) (platformOf s i) i (keOf s j) (platformOf s j) j

/-- A slot's place in the row map (R74). -/
def positionOf (s : State) (i : Nat) : Option Nat := placeOf i s.rowMap

/-- A slot leaves the row map (R76). -/
def unplace (i : Nat) (s : State) : State := { s with rowMap := s.rowMap.filter (· ≠ i) }

/-- A slot is removed, and if it is active inserted at the number of entries whose key is less than its own (R75). -/
def place (i : Nat) (s : State) : State :=
  let others := s.rowMap.filter (· ≠ i)
  if (slotAt s i).state.active then
    { s with rowMap := others.insertIdx (others.filter (fun j => before s j i)).length i }
  else { s with rowMap := others }

/-! ## Boards (R81) -/

/-- The footnote record of board p. -/
def footnoteAt (s : State) (p : Nat) : Option Footnote := s.footnotes.getD (p - 1) none

/-- Every footnote record is changed by a function of its board and itself. -/
def mapFootnotes (f : Nat → Option Footnote → Option Footnote) (s : State) : State :=
  { s with footnotes := s.footnotes.zipIdx.map fun e => f (e.2 + 1) e.1 }

/-- A footnote record refers to slot i. -/
def refersTo (i : Nat) (n : Option Footnote) : Bool :=
  match n with
  | some n => decide (n.slot = i)
  | none => false

/-! ## Drops (R95) -/

/-- The drop table entry of an address. -/
def dropAt (s : State) (a : Nat) : Drop := s.display.drops.getD a (Drop.fresh .none)

/-- A drop table entry changed. -/
def modDrop (a : Nat) (f : Drop → Drop) (s : State) : State :=
  { s with display := { s.display with drops := s.display.drops.set a (f (dropAt s a)) } }

/-- The configured drops: the addresses that hold a role, ascending (R94). -/
def configuredDrops (s : State) : List Nat :=
  (List.range Config.dropCount).filter fun a => decide ((dropAt s a).role ≠ .none)

/-- The configured drops that are OFFLINE, ascending (R111, R112). -/
def offlineDrops (s : State) : List Nat :=
  (configuredDrops s).filter fun a => !(dropAt s a).online

/-- The wall row drops, in ascending row order. -/
def wallDrops (s : State) : List Nat := (List.range s.params.w).map (s.params.firstWall + ·)

/-! ## Notice entries (R151) -/

/-- An entry of the notice table. -/
def entryAt (s : State) (i : Nat) : Entry := s.notices.entries.getD i .reset

/-- An entry changed. -/
def modEntry (i : Nat) (f : Entry → Entry) (s : State) : State :=
  { s with notices := { s.notices with entries := s.notices.entries.set i (f (entryAt s i)) } }

/-! ## The write-back set (R13) -/

/-- A word is marked: one whose write-back is in flight holds the mark as a change since start (R14), one already in
the set keeps its place, any other joins at the tail (R13). -/
def MemPath.mark (m : MemPath) (offset : Nat) : MemPath :=
  match m.port, m.writeBacks with
  | .writeBack _ _, e :: rest =>
    if e.offset = offset then { m with writeBacks := { e with changed := true } :: rest }
    else if rest.any (fun x => decide (x.offset = offset)) then m
    else { m with writeBacks := m.writeBacks ++ [{ offset := offset, changed := false }] }
  | _, _ =>
    if m.writeBacks.any (fun x => decide (x.offset = offset)) then m
    else { m with writeBacks := m.writeBacks ++ [{ offset := offset, changed := false }] }

/-- A part of the present event changes the content of a word, which a later part of it may change back: the word is
noted, and marked at the event's end (R13, log entry 24). -/
def noteIf (b : Bool) (offset : Nat) (s : State) : State :=
  { s with mem := { s.mem with noted := s.mem.noted ++ if b then [offset] else [] } }

/-- The words noted by an event that takes the state from `s` to `t`. -/
def notedBy (s t : State) : List Nat := t.mem.noted.drop s.mem.noted.length

/-- The offset of the summary word (R178). -/
def summaryOffset : Nat := 0x8C

/-- The offset of the clock word (R60). -/
def clockOffset : Nat := 0x80

/-- The offset of the status word of slot i (R37). -/
def statusOffset (i : Nat) : Nat := 0x1000 + 32 * i + 24

/-- The offset of word k of notice status entry i (R152). -/
def noticeOffset (i k : Nat) : Nat := 0x100 + 16 * i + 4 * k

/-! ## Completion of a command (R168) -/

/-- The primary status of a response (section 11.2). -/
inductive Primary where
  | done
  | refused
  | failed
deriving DecidableEq, Repr

/-- Its code. -/
def Primary.code : Primary → Nat
  | .done => 1
  | .refused => 2
  | .failed => 3

/-- The secondary status of a response (section 11.2). -/
inductive Secondary where
  | none
  | unknownCommand
  | badParameter
  | wrongState
  | queueFull
  | tableFull
  | crossesRoll
  | notFound
  | memoryFault
  | configInvalid
deriving DecidableEq, Repr

/-- Its code. -/
def Secondary.code : Secondary → Nat
  | .none => 0
  | .unknownCommand => 1
  | .badParameter => 2
  | .wrongState => 3
  | .queueFull => 4
  | .tableFull => 5
  | .crossesRoll => 6
  | .notFound => 7
  | .memoryFault => 8
  | .configInvalid => 9

/-- Response word 0 (section 11.2): tag and code as taken, primary and secondary status. -/
def responseHead (words : List Word) (p : Primary) (q : Secondary) : Word :=
  packWord [(commandTag words, 0), (commandCode words, 8), (p.code, 16), (q.code, 24)]

/-- Six result words, each 0 where the command has no result for it (R168). -/
def resultWords (results : List Word) : List Word := (List.range 6).map fun k => results.getD k 0

/-- The command in execution completes (R168): the response words are set, the completion count rises, COMMAND_DONE is
pended and the command leaves execution. Without a command in execution there is nothing to complete. -/
def complete (p : Primary) (q : Secondary) (results : List Word) (s : State) : State :=
  match s.cmd.exec with
  | none => s
  | some words =>
    pend .commandDone { s with cmd := { s.cmd with
      exec := none
      response := responseHead words p q :: resultWords results
      count := s.cmd.count + 1 } }

/-- The command completes with DONE. -/
def completeDone (results : List Word) (s : State) : State := complete .done .none results s

/-- The command is refused, with every result 0 (section 11.2). -/
def refuse (q : Secondary) (s : State) : State := complete .refused q [] s

/-- A number as a result word. -/
def resultOf (n : Nat) : Word := BitVec.ofNat 32 n

end Sys2Proof.Machine
end

