-- ==== Sys2Proof/Machine/Words.lean ====
section
/-! DEFINITION. The part's value of every part-owned word, assembled from the state (R9, R37, R60, R152, R172, R178;
layouts of chapter 11), and which words an event marks for write-back (R13). -/

namespace Sys2Proof.Machine

/-! ## Codes of chapter 11 -/

/-- Slot state code (section 11.1). -/
def SlotState.code : SlotState → Nat
  | .vacant => 0
  | .scheduled => 1
  | .boarding => 2
  | .departing => 3
  | .cancelled => 4
  | .expired => 5

/-- Last result code (section 11.1). -/
def LastResult.code : LastResult → Nat
  | .taken => 0
  | .badTime => 1
  | .badDay => 2
  | .badPlatform => 3
  | .badDestination => 4
  | .loadFault => 5

/-- Day offset code: 0 for 0, 1 for +1, 3 for -1 (section 11.1). -/
def offsetCode (o : Int) : Nat := if o = 0 then 0 else if o = 1 then 1 else 3

/-- Clock state code (section 11.4). -/
def ClockState.code : ClockState → Nat
  | .unset => 0
  | .running => 1
  | .locked => 2
  | .freerun => 3

/-- Clock source code (section 11.4). -/
def ClockSource.code : ClockSource → Nat
  | .internal => 0
  | .masterSecond => 1
  | .masterMinute => 2

/-- The shared code of clock state and source in the summary word (section 11.4). A RUNNING clock has source INTERNAL,
a LOCKED or FREERUN clock a master source (R48). -/
def clockPairCode : ClockState → ClockSource → Nat
  | .unset, .internal => 0
  | .unset, .masterSecond => 1
  | .unset, .masterMinute => 2
  | .running, _ => 3
  | .locked, .masterMinute => 5
  | .locked, _ => 4
  | .freerun, .masterMinute => 7
  | .freerun, _ => 6

/-- Fault source code (section 11.4). -/
def FaultSource.code : FaultSource → Nat
  | .load => 0
  | .fetch => 1
  | .writeback => 2

/-- Part state code (section 11.4). -/
def PartState.code : PartState → Nat
  | .starting => 0
  | .loading => 1
  | .running => 2
  | .halted => 3

/-- Wall mode code (section 11.4). -/
def WallMode.code : WallMode → Nat
  | .run => 0
  | .hold => 1
  | .freeze => 2

/-- Cue link state code (section 11.4). -/
def LinkState.code : LinkState → Nat
  | .ready => 0
  | .sending => 1
  | .speaking => 2
  | .gap => 3
  | .stalled => 4
  | .off => 5

/-- Notice entry state code (section 11.5). -/
def EntryState.code : EntryState → Nat
  | .empty => 0
  | .fetching => 1
  | .active => 2

/-- Notice class code (section 11.5). -/
def NoticeClass.code : NoticeClass → Nat
  | .info => 0
  | .delay => 1
  | .disruption => 2

/-- Notice result code (section 11.5). -/
def NoticeResult.code : NoticeResult → Nat
  | .none => 0
  | .accepted => 1
  | .ok => 2
  | .truncated => 3
  | .badAlign => 4
  | .outOfRange => 5
  | .memoryFault => 6
  | .emptyText => 7
  | .withdrawn => 8
  | .expired => 9

/-! ## The words -/

/-- The status word of slot i (R37, section 11.1). -/
def statusWord (s : State) (i : Nat) : Word :=
  let x := slotAt s i
  packWord [(x.state.code, 0), (x.lastResult.code, 3), (bitOf x.capped, 6), (bitOf x.highlight.isSome, 7),
    (offsetCode ((x.keys.map (·.offset)).getD 0), 8), (x.announced, 10), ((positionOf s i).getD 127, 16),
    (x.generation, 24)]

/-- The clock word (R60, section 11.4). -/
def clockWord (c : Clock) : Word :=
  packWord [(c.civil % 60, 0), (c.civil / 60 % 60, 8), (c.civil / 3600, 16), (c.state.code, 24), (c.source.code, 26),
    (bitOf (decide (c.slew ≠ 0)), 28)]

/-- The fault word (R19, section 11.4): bits 25:2 are those of the byte address. -/
def faultWord : Option Capture → Word
  | none => 0
  | some f => packWord [(1, 0), (bitOf f.more, 1), (f.addr / 4 % 2 ^ 24, 2), (bitOf f.write, 28), (f.source.code, 29)]

/-- The number of ACTIVE notice entries (R152). -/
def activeNotices (s : State) : Nat := s.notices.entries.countP fun e => decide (e.state = .active)

/-- The summary word (R178, section 11.4). -/
def summaryWord (s : State) : Word :=
  packWord [(s.part.state.code, 0), (s.display.mode.code, 2), (clockPairCode s.clock.state s.clock.source, 4),
    (s.cues.link.code, 7), (bitOf s.part.clamped, 10), (83 * s.rowMap.length + s.display.marks.length, 11),
    (9 * s.cues.queue.length + activeNotices s, 24)]

/-- Word k of the notice status entry i (R152, section 11.5). The error direction is READ, 0, in every entry. -/
def noticeWord (e : Entry) (k : Nat) : Word :=
  match k with
  | 0 => packWord [(e.id, 0), (e.state.code, 8), (e.cls.code, 10), (bitOf e.replacing, 12), (e.result.code, 16),
      (e.dwell, 24)]
  | 1 => packWord [(e.minutes, 0), (e.text.length, 16)]
  | 2 => packWord [(e.phrase, 0)]
  | _ => BitVec.ofNat 32 e.errAddr

/-- Response word k: 0..6 as set, 7 the completion count (R168). -/
def responseWord (c : CommandArea) (k : Nat) : Word := if k = 7 then c.count else c.response.getD k 0

/-- The part's value of a part-owned word; 0 for a word of another class, which the part does not supply. -/
def partWord (s : State) : WordClass → Word
  | .response k => responseWord s.cmd k
  | .clock => clockWord s.clock
  | .event => s.att.word
  | .fault => faultWord s.mem.fault
  | .summary => summaryWord s
  | .notice i k => noticeWord (entryAt s i) k
  | .status i => statusWord s i
  | _ => 0

/-! ## Marks for write-back -/

/-- What the clock word is marked for (R61): the minute, the state, the source, the slewing flag, the roll minute. -/
def clockMarkKey (c : Clock) : Nat × ClockState × ClockSource × Bool × Nat :=
  (c.minute, c.state, c.source, decide (c.slew ≠ 0), c.roll)

/-- The content of this word has changed from `s` to `t` (R13): the response words at a completion (R168), the clock word
at its own occasions (R61), every other word when its value differs. -/
def changedBy (s t : State) (offset : Nat) : Bool :=
  match classOf offset with
  | .response _ => decide (s.cmd.count ≠ t.cmd.count)
  | .clock => decide (clockMarkKey s.clock ≠ clockMarkKey t.clock)
  | c => decide (partWord s c ≠ partWord t c)

/-- An event that takes the state from `s` to `t` marks this word: its content differs after the event, or was noted as
changed within it (R13, log entry 24). -/
def marksWord (s t : State) (offset : Nat) : Bool := changedBy s t offset || (notedBy s t).contains offset

/-- The words an event marks, in ascending offset (R13). -/
def markedBy (s t : State) : List Nat := writtenBack.filter (marksWord s t)

/-- The marks of an event join the write-back set together, in ascending offset (R13), and nothing is left noted. -/
def markWords (s t : State) : State :=
  { t with mem := { t.mem with
    writeBacks := ((markedBy s t).foldl MemPath.mark t.mem).writeBacks, noted := s.mem.noted } }

/-- The words of notice entry i whose content has changed from `s` to `t` are noted (R152). -/
def noteEntry (i : Nat) (s t : State) : State :=
  (List.range 4).foldl
    (fun u k => noteIf (decide (noticeWord (entryAt s i) k ≠ noticeWord (entryAt t i) k)) (noticeOffset i k) u) t

end Sys2Proof.Machine
end

