-- ==== Sys2Proof/Machine/Content.lean ====
section
/-! DEFINITION. What each drop shows (chapter 5) and the bytes of its frame (section 11.6). -/

namespace Sys2Proof.Machine

/-! ## Slot content (R85 to R87) -/

/-- The remark of a slot: the first that applies (R87). -/
def remarkOf (q : Params) (x : Slot) (r : Record) : Remark :=
  if x.state = .cancelled then .cancelled
  else if x.state = .departing then .departing
  else if x.highlight.isSome then .changed
  else if x.state = .boarding then .boarding
  else if q.threshold ≤ r.delay then .delayed r.delay
  else .none

/-- The time item: whether it is the expected time (R86). -/
def showsExpected (q : Params) (x : Slot) (r : Record) : Bool :=
  decide (x.state ≠ .cancelled) && decide (0 < r.delay) && decide (q.threshold ≤ r.delay)

/-- The minute the time item shows: E when the expected time is shown, else the scheduled minute (R86). -/
def shownMinute (q : Params) (x : Slot) (r : Record) : Nat :=
  if showsExpected q x r then r.expected else r.minute

/-- The added delay, 0 for none (R86). -/
def addedDelay (q : Params) (x : Slot) (r : Record) : Nat :=
  if x.state = .cancelled ∨ q.threshold ≤ r.delay then 0 else r.delay

/-- The countdown shown, 0 for none (R68). -/
def shownCountdown (q : Params) (c : Clock) (x : Slot) (ke : Int) : Nat :=
  if c.isSet ∧ (x.state = .scheduled ∨ x.state = .boarding) ∧ 1 ≤ countdown ke c ∧ countdown ke c ≤ q.window then
    (countdown ke c).toNat
  else 0

/-- The content of a slot that holds an applied record (R85). -/
def contentOf (q : Params) (c : Clock) (x : Slot) (r : Record) (ke : Int) : Content :=
  { operator := r.operator
    service := r.service
    destination := r.destination
    via := r.via
    hh := shownMinute q x r / 60
    mm := shownMinute q x r % 60
    expected := showsExpected q x r
    added := addedDelay q x r
    countdown := shownCountdown q c x ke
    platform := r.platform
    remark := remarkOf q x r
    remarkCode := r.remark
    formation := r.formation
    highlight := x.highlight.isSome
    flash := decide (x.state = .departing) }

/-- The content of slot i, if it holds a record. -/
def slotContent (s : State) (i : Nat) : Option Content :=
  match (slotAt s i).applied, (slotAt s i).keys with
  | some r, some k => some (contentOf s.params s.clock (slotAt s i) r k.ke)
  | _, _ => none

/-! ## Rows and boards (R79, R80, R88) -/

/-- The position slot of wall row i (R79). -/
def positionSlot (s : State) (row : Nat) : Option Nat := s.rowMap[row]?

/-- The rendered content of wall row i: its position slot with that slot's content, or nothing (R89). -/
def rowContent (s : State) (row : Nat) : Option (Nat × Option Content) :=
  (positionSlot s row).map fun i => (i, slotContent s i)

/-- The main slot of board p: the first entry of the row map with platform p (R80). -/
def mainSlot (s : State) (p : Nat) : Option Nat := s.rowMap.find? fun i => decide (platformOf s i = p)

/-- The main field of board p: its main slot with the content of R85 less the via code (R88). -/
def mainField (s : State) (p : Nat) : Option (Nat × Option Content) :=
  (mainSlot s p).map fun i => (i, (slotContent s i).map fun c => { c with via := 0 })

/-- The service number of a slot's applied record; 0 where it has none. -/
def serviceOf (s : State) (i : Nat) : Nat := ((slotAt s i).applied.map (·.service)).getD 0

/-- The footnote of board p as shown: slot, service number, to-platform (R88). -/
def footnoteShown (s : State) (p : Nat) : Option (Nat × Nat × Nat) :=
  (footnoteAt s p).map fun n => (n.slot, serviceOf s n.slot, n.toPlatform)

/-- The rendered content of board p (R89). -/
def boardContent (s : State) (p : Nat) : Option (Nat × Option Content) × Option (Nat × Nat × Nat) :=
  (mainField s p, footnoteShown s p)

/-! ## Frames (section 11.6) -/

/-- Frame kind code. -/
def FrameKind.code : FrameKind → Nat
  | .row => 1
  | .board => 2
  | .clock => 3
  | .ticker => 4
  | .blank => 5
  | .probe => 6

/-- Remark code. -/
def Remark.code : Remark → Nat
  | .none => 0
  | .delayed _ => 1
  | .cancelled => 2
  | .boarding => 3
  | .departing => 4
  | .changed => 5

/-- The remark delay: d for DELAYED, 0 otherwise. -/
def Remark.delay : Remark → Nat
  | .delayed d => d
  | _ => 0

/-- The items of a slot before the via code: operator, service, destination. -/
def contentHead (c : Content) : List Byte := byteOf c.operator :: twoBytes c.service ++ twoBytes c.destination

/-- The items of a slot after the via code. -/
def contentTail (c : Content) : List Byte :=
  [byteOf c.hh, byteOf c.mm, byteOf (bitOf c.expected)] ++ twoBytes c.added ++
    [byteOf c.countdown, byteOf c.platform, byteOf c.remark.code] ++ twoBytes c.remark.delay ++
    twoBytes c.remarkCode ++ [byteOf c.formation, byteOf (bitOf c.highlight + 2 * bitOf c.flash)]

/-- The 21 items of a ROW frame. -/
def rowItems (c : Content) : List Byte := contentHead c ++ twoBytes c.via ++ contentTail c

/-- The 24 items of a BOARD frame; those of an absent part are 0 (R179). -/
def boardItems (main : Option Content) (foot : Option (Nat × Nat × Nat)) : List Byte :=
  (match main with
    | some c => byteOf 1 :: (contentHead c ++ contentTail c)
    | none => List.replicate 20 0) ++
  (match foot with
    | some (_, service, to') => byteOf 1 :: (twoBytes service ++ [byteOf to'])
    | none => List.replicate 4 0)

/-- The items of the CLOCK frame (R83). -/
def clockItems (c : Clock) : List Byte := [byteOf (c.civil / 3600), byteOf (c.civil / 60 % 60), byteOf c.state.code]

/-- The items of a TICKER frame (R84). -/
def tickerItems (e : Entry) : List Byte :=
  [byteOf e.id, byteOf e.cls.code, byteOf e.text.length] ++ e.text

/-- A frame: address, kind, item length, items, and the additive check low byte first (R106). -/
def frameBytes (drop : Nat) (kind : FrameKind) (items : List Byte) : List Byte :=
  let body := [byteOf drop, byteOf kind.code, byteOf items.length] ++ items
  body ++ twoBytes (sumCheck body)

/-- A frame as rendered: kind, items, and for a ROW frame its slot and platform item. -/
structure Rendered where
  kind : FrameKind
  items : List Byte
  shown : Option (Nat × Nat)
deriving DecidableEq, Repr

/-- The BLANK frame. -/
def blankFrame : Rendered := { kind := .blank, items := [], shown := none }

/-- The ROW frame of a slot in the row map; a BLANK frame where there is nothing to show (R79, R102). -/
def rowFrame (s : State) (slot : Option Nat) : Rendered :=
  match slot with
  | none => blankFrame
  | some i =>
    match slotContent s i with
    | none => blankFrame
    | some c => { kind := .row, items := rowItems c, shown := some (i, c.platform) }

/-- The slot a wall row drop is rendered from: its shown slot in HOLD, if that is still in the row map, else its
position slot (R102, R79). -/
def wallSlot (s : State) (drop row : Nat) : Option Nat :=
  if s.display.mode = .hold then
    ((dropAt s drop).shown.map (·.1)).filter fun i => (slotAt s i).state.active
  else positionSlot s row

/-- The frame of a drop by its role, rendered from current state (R106). -/
def render (s : State) (drop : Nat) : Rendered :=
  match (dropAt s drop).role with
  | .none => blankFrame
  | .wall row => rowFrame s (wallSlot s drop row)
  | .clock => { kind := .clock, items := clockItems s.clock, shown := none }
  | .ticker =>
    match s.notices.shown with
    | some i => { kind := .ticker, items := tickerItems (entryAt s i), shown := none }
    | none => blankFrame
  | .board p => { kind := .board, items := boardItems ((mainField s p).bind (·.2)) (footnoteShown s p), shown := none }

end Sys2Proof.Machine
end

