-- ==== Sys2Proof/Machine/Marks.lean ====
section
/-! DEFINITION. Marks: how a mark joins the pending set (R97), how HOLD retargets it (R101), and which marks an event
makes (R89 to R93, R104, R114). -/

namespace Sys2Proof.Machine

/-- A mark of class `urgent` for a drop, with the causing slot it carries. -/
def markFor (drop : Nat) (urgent : Bool) (cause : Option Nat) : Mark :=
  { drop := drop, urgent := urgent, cause := cause, seq := 0 }

/-- An entry of the pending set raised by a new mark for the same drop (R97). -/
def Mark.raise (old new : Mark) : Mark :=
  { old with urgent := old.urgent || new.urgent, cause := new.cause.or old.cause }

/-- A mark is treated by the table of R97. -/
def joinMark (m : Mark) (s : State) : State :=
  if (dropAt s m.drop).online = false ∨ (dropAt s m.drop).role = .none then s
  else if s.display.marks.any (fun e => decide (e.drop = m.drop)) then
    { s with display := { s.display with
      marks := s.display.marks.map fun e => if e.drop = m.drop then e.raise m else e } }
  else
    { s with display := { s.display with
      marks := s.display.marks ++ [{ m with seq := s.display.joinSeq }]
      joinSeq := s.display.joinSeq + 1 } }

/-- The wall row drops whose shown slot is X, in ascending row order (R101, log entry 21). -/
def dropsShowing (s : State) (x : Nat) : List Nat :=
  (wallDrops s).filter fun a => decide ((dropAt s a).shown.map (·.1) = some x)

/-- An address whose role is a wall row. -/
def isWall (s : State) (a : Nat) : Bool :=
  match (dropAt s a).role with
  | .wall _ => true
  | _ => false

/-- A mark is handed over: in HOLD an URGENT wall row mark is replaced by one for each wall row drop that shows its
causing slot (R101); any other is treated as it is. -/
def handMark (m : Mark) (s : State) : State :=
  match m.cause with
  | some x =>
    if s.display.mode = .hold ∧ m.urgent ∧ isWall s m.drop then
      (dropsShowing s x).foldl (fun t a => joinMark { m with drop := a } t) s
    else joinMark m s
  | none => joinMark m s

/-- Marks handed over together are treated one after another (R97). -/
def handMarks (ms : List Mark) (s : State) : State := ms.foldl (fun t m => handMark m t) s

/-- Marks that different blocks hand over in one time advance. The spec gives no order among the blocks, so where
more than one has marks their order is a free choice (log entry 12). -/
def handGroups (groups : List (List Mark)) (s : State) : State :=
  let gs := groups.filter fun g => !g.isEmpty
  if gs.length ≤ 1 then handMarks gs.flatten s
  else handMarks (arrange (Config.openOrder s.freeCount) gs).flatten { s with freeCount := s.freeCount + 1 }

/-- The address that holds a role (R94). -/
def clockAddress (s : State) : Nat := s.params.clockDrop

/-- The URGENT mark of the clock drop (R61). -/
def clockMark (s : State) : Mark := markFor s.params.clockDrop true none

/-! ## The comparison of R89 -/

/-- Slot X is the slot of a rendered row or main field. -/
def concernsRow (x : Nat) (c : Option (Nat × Option Content)) : Bool := decide (c.map (·.1) = some x)

/-- Slot X is concerned in a board: as main slot or as the slot of its footnote (R90). -/
def concernsBoard (x : Nat) (c : Option (Nat × Option Content) × Option (Nat × Nat × Nat)) : Bool :=
  concernsRow x c.1 || decide (c.2.map (·.1) = some x)

/-- What causes the marks of an event: nothing (every mark ROUTINE, R92, R93), or a commit, load outcome or vacate of a
slot, with its cause class (R90). -/
structure Cause where
  slot : Nat
  urgent : Bool
deriving DecidableEq, Repr

/-- The mark of a drop whose content differs: of the cause class where the causing slot is concerned, else ROUTINE
(R90). An URGENT mark carries the causing slot (R97). -/
def causedMark (cause : Option Cause) (drop : Nat) (concerned : Nat → Bool) : Mark :=
  match cause with
  | some c => if c.urgent && concerned c.slot then markFor drop true (some c.slot) else markFor drop false none
  | none => markFor drop false none

/-- The mark of wall row i, if its rendered content differs (R89). -/
def rowMark (cause : Option Cause) (s t : State) (row : Nat) : Option Mark :=
  if rowContent s row = rowContent t row then none
  else some (causedMark cause (t.params.firstWall + row)
    fun x => concernsRow x (rowContent s row) || concernsRow x (rowContent t row))

/-- The mark of board p, if its rendered content differs (R89). -/
def boardMark (cause : Option Cause) (s t : State) (p : Nat) : Option Mark :=
  if boardContent s p = boardContent t p then none
  else some (causedMark cause (t.params.boardBase + p - 1)
    fun x => concernsBoard x (boardContent s p) || concernsBoard x (boardContent t p))

/-- The marks an event that takes the state from `s` to `t` makes: wall rows ascending, then boards ascending (R91). -/
def contentMarks (cause : Option Cause) (s t : State) : List Mark :=
  (List.range t.params.w).filterMap (rowMark cause s t) ++
    (List.range t.params.p).filterMap (fun k => boardMark cause s t (k + 1))

/-- An event followed by the comparison of R89 over it. -/
def compared (cause : Option Cause) (f : State → State) (s : State) : State :=
  handMarks (contentMarks cause s (f s)) (f s)

/-! ## Other occasions -/

/-- The marks made on leaving HOLD: each wall row whose shown slot differs from its position slot (R104). -/
def leavingHoldMarks (s : State) : List Mark :=
  ((List.range s.params.w).filter fun row =>
      decide ((dropAt s (s.params.firstWall + row)).shown.map (·.1) ≠ positionSlot s row)).map
    fun row => markFor (s.params.firstWall + row) false none

/-- The full refresh: every configured drop ROUTINE, in ascending address order (R114). -/
def fullRefresh (s : State) : State := handMarks ((configuredDrops s).map fun a => markFor a false none) s

end Sys2Proof.Machine
end

