-- ==== Sys2Proof/Machine/Cues.lean ====
section
/-! DEFINITION. The Cue Queue (sections 8.1 to 8.3), the gate (section 7.8) and the cue message (section 8.7). -/

namespace Sys2Proof.Machine

/-! ## Kinds and classes (R130) -/

/-- The class of a kind (R130). -/
def CueKind.cls : CueKind → CueClass
  | .platformChange | .cancellation => .change
  | .delay | .boarding | .notice | .general => .service
  | .emergency => .emergency

/-- The precedence of a class (R130). -/
def CueClass.rank : CueClass → Nat
  | .service => 0
  | .change => 1
  | .emergency => 2

/-- The code of a kind (section 11.7). -/
def CueKind.code : CueKind → Nat
  | .platformChange => 1
  | .cancellation => 2
  | .delay => 3
  | .boarding => 4
  | .notice => 5
  | .general => 6
  | .emergency => 7

/-- The precedence of a record. -/
def Cue.rank (c : Cue) : Nat := c.kind.cls.rank

/-- A slot cue as its maker makes it (R130): no repeats given, no not-before time, no aborts. -/
def slotCue (kind : CueKind) (i : Nat) (r : Record) (repeats : Nat) : Cue :=
  { kind := kind, slot := some i, service := r.service, destination := r.destination, expected := r.expected,
    platform := r.platform, fromPlatform := 0, delay := 0, phrase := 0, repeatsLeft := repeats, repeatCount := 0,
    notBefore := none, aborts := 0, order := 0 }

/-- A cue of kind NOTICE, GENERAL or EMERGENCY (R140, R141). -/
def phraseCue (kind : CueKind) (phrase repeats : Nat) : Cue :=
  { kind := kind, slot := none, service := 0, destination := 0, expected := 0, platform := 0, fromPlatform := 0,
    delay := 0, phrase := phrase, repeatsLeft := repeats, repeatCount := 0, notBefore := none, aborts := 0,
    order := 0 }

/-! ## The queue (R131 to R133) -/

/-- How far below the next enqueue order a record's order lies, modulo 2^32 (R131). -/
def ageOf (next order : BitVec 32) : Nat := (next - order).toNat

/-- Same slot and slot kind (R131). -/
def sameCue (a b : Cue) : Bool := a.slot.isSome && decide (a.slot = b.slot) && decide (a.kind = b.kind)

/-- Replacement in place: the new parameters, the counts reset, place and repeats left kept (R130, R131, R118). -/
def Cue.replaceBy (old new : Cue) : Cue := { new with order := old.order, repeatsLeft := old.repeatsLeft }

/-- The message in flight is that of the record with this enqueue order, still in the queue. The order is taken as the
record's identity; records that share one, 2^32 cues apart, are not told apart (log entry 36). -/
def inFlight (u : CueUnit) (order : BitVec 32) : Bool :=
  match u.msg with
  | some m => decide (m.condition ≠ .removed) && decide (m.cue.order = order)
  | none => false

/-- The record of the message in flight takes a condition (R136). -/
def setCondition (c : Condition) (u : CueUnit) : CueUnit := { u with msg := u.msg.map fun m => { m with condition := c } }

/-- The records that satisfy a test leave the queue (R133); a message in flight of one of them goes on, its record
REMOVED (R136). -/
def CueUnit.remove (test : Cue → Bool) (u : CueUnit) : CueUnit :=
  let u' := { u with queue := u.queue.filter fun c => !test c }
  if u.queue.any (fun c => test c && inFlight u c.order) then setCondition .removed u' else u'

/-- The youngest record of the lowest class present (R132). -/
def victim (u : CueUnit) : Option Cue :=
  u.queue.foldl (fun best c =>
    match best with
    | none => some c
    | some b =>
      if c.rank < b.rank then some c
      else if c.rank = b.rank ∧ ageOf u.next c.order < ageOf u.next b.order then some c
      else best) none

/-- What became of a cue handed to the queue. -/
inductive Placement where
  | joined (order : BitVec 32)
  | replaced
  | displaced (order : BitVec 32) (kind : CueKind) (slot : Option Nat)
  | dropped
deriving DecidableEq, Repr

/-- A cue joins at the tail with the next enqueue order (R131). -/
def CueUnit.join (c : Cue) (u : CueUnit) : CueUnit :=
  { u with queue := u.queue ++ [{ c with order := u.next }], next := u.next + 1 }

/-- A cue replaces in place the record of its slot and kind (R131). -/
def CueUnit.replace (c : Cue) (u : CueUnit) : CueUnit :=
  let u' := { u with queue := u.queue.map fun e => if sameCue e c then e.replaceBy c else e }
  if u.queue.any (fun e => sameCue e c && inFlight u e.order) then setCondition .replaced u' else u'

/-- A cue is placed (the table of R131, and R132 for a full queue). The record displaced is taken out by its enqueue order
(log entry 36). -/
def CueUnit.placeCue (c : Cue) (u : CueUnit) : CueUnit × Placement :=
  if u.queue.any (fun e => sameCue e c) then (u.replace c, .replaced)
  else if u.queue.length < Config.cueCapacity then (u.join c, .joined u.next)
  else
    match victim u with
    | some v =>
      if v.rank < c.rank then
        ((u.remove fun e => decide (e.order = v.order)).join c, .displaced u.next v.kind v.slot)
      else (u, .dropped)
    | none => (u, .dropped)

/-- A cue was displaced or dropped: CUE_DROPPED is pended (R132). -/
def Placement.lossy : Placement → Bool
  | .displaced _ _ _ | .dropped => true
  | _ => false

/-- A cue joined the queue, whose depth rose with it (R131). -/
def Placement.joins : Placement → Bool
  | .joined _ | .displaced _ _ _ => true
  | _ => false

/-- A cue is handed to the queue (R131, R132), with what became of it. A cue that joins changes the depth, which the
summary word carries. -/
def handCue (c : Cue) (s : State) : State × Placement :=
  let r := s.cues.placeCue c
  (noteIf r.2.joins summaryOffset (pendIf r.2.lossy .cueDropped { s with cues := r.1 }), r.2)

/-- A cue is handed to the queue by a maker that is told nothing. -/
def makeCue (c : Cue) (s : State) : State := (handCue c s).1

/-- Records leave the queue (R133); where one does, the depth changes, which the summary word carries. -/
def removeCues (test : Cue → Bool) (s : State) : State :=
  noteIf (s.cues.queue.any test) summaryOffset { s with cues := s.cues.remove test }

/-- The records of slot i. -/
def ofSlot (i : Nat) (c : Cue) : Bool := decide (c.slot = some i)

/-- The record of slot i of one kind. -/
def ofKind (k : CueKind) (i : Nat) (c : Cue) : Bool := ofSlot i c && decide (c.kind = k)

/-! ## The gate (R127, R128) -/

/-- The gating drop of a slot (R127). -/
def gatingDrop (s : State) (i : Nat) : Option Nat :=
  if s.display.mode = .hold then (dropsShowing s i).head?
  else
    match positionOf s i with
    | some row => if row < s.params.w then some (s.params.firstWall + row) else none
    | none => none

/-- A cue meets the gate (R128). -/
def meetsGate (s : State) (c : Cue) : Bool :=
  match c.slot with
  | none => true
  | some i =>
    if c.kind ≠ .platformChange ∧ c.platform = 0 then true
    else
      match gatingDrop s i with
      | none => true
      | some a => !(dropAt s a).online || decide ((dropAt s a).shown = some (i, c.platform))

/-- The not-before time is none or has passed (R134, log entry 10). -/
def notBeforePassed (now : Nat) (n : Option NotBefore) : Bool :=
  match n with
  | none => true
  | some n => n.passed || decide (n.time < now)

/-- A cue record is eligible (R134). -/
def eligible (s : State) (c : Cue) : Bool :=
  notBeforePassed s.refTime c.notBefore && meetsGate s c && !inFlight s.cues c.order

/-- Of two records the one that goes first: the higher class, then the older (R134). -/
def goesFirst (next : BitVec 32) (a b : Cue) : Bool :=
  decide (b.rank < a.rank) || (decide (a.rank = b.rank) && decide (ageOf next b.order < ageOf next a.order))

/-- The first of a list of records (R134). -/
def firstCue (next : BitVec 32) (cs : List Cue) : Option Cue :=
  cs.foldl (fun best c =>
    match best with
    | none => some c
    | some b => if goesFirst next c b then some c else best) none

/-- The next cue among the eligible records that satisfy a test (R134). -/
def nextAmong (test : Cue → Bool) (s : State) : Option Cue :=
  firstCue s.cues.next (s.cues.queue.filter fun c => eligible s c && test c)

/-- The busy input keeps a message from beginning: it is high, and the mode is not TIMED (R135). -/
def busyHolds (s : State) : Bool := s.cues.busyIn && decide (s.params.linkMode ≠ .timed)

/-- The cue that may begin in the present link state (the table of R135). -/
def cueToBegin (s : State) : Option Cue :=
  match s.cues.link with
  | .ready => if busyHolds s then none else nextAmong (fun _ => true) s
  | .gap => if busyHolds s then none else nextAmong (fun c => decide (c.kind = .emergency)) s
  | _ => none

/-! ## The message (R149, section 11.7) -/

/-- The parameter bytes of a cue, the presentation number last. -/
def messageParams (c : Cue) : List Byte :=
  let head := twoBytes c.service ++ twoBytes c.destination ++ twoBytes c.expected
  match c.kind with
  | .platformChange => head ++ [byteOf c.fromPlatform, byteOf c.platform, byteOf c.repeatCount]
  | .cancellation | .boarding => head ++ [byteOf c.platform, byteOf c.repeatCount]
  | .delay => head ++ [byteOf c.platform] ++ twoBytes c.delay ++ [byteOf c.repeatCount]
  | .notice | .general | .emergency => twoBytes c.phrase ++ [byteOf c.repeatCount]

/-- The bytes of a cue message: start, kind, length, parameters, check (R149). -/
def messageBytes (c : Cue) : List Byte :=
  let body := [0xC5, byteOf c.kind.code, byteOf (messageParams c).length] ++ messageParams c
  body ++ [xorCheck body]

/-! ## Link timers (R147, R148) -/

/-- The link enters GAP and the gap timer starts; a gap of 0 expires at once (R147). -/
def enterGap (s : State) : State :=
  if s.params.gap = 0 then { s with cues := { s.cues with link := .ready, gapTimer := none } }
  else { s with cues := { s.cues with link := .gap, gapTimer := some s.params.gap } }

/-- The link enters OFF, which stops both timers (R143). -/
def enterOff (s : State) : State :=
  { s with cues := { s.cues with link := .off, gapTimer := none, busyTimer := none } }

/-- The busy timer has its condition (R148): SPEAKING, or READY with an eligible cue waiting and busy high. -/
def busyTimed (s : State) : Bool :=
  match s.cues.link with
  | .speaking => true
  | .ready => busyHolds s && s.cues.queue.any (eligible s)
  | _ => false

/-- The busy timer after an event: it starts when its condition comes, runs on while it lasts, stops when it goes
(R148). The condition is judged at the event's end: where within one event the last eligible cue leaves and another
becomes eligible, the timer runs on and does not start afresh (log entry 39). -/
def tendBusyTimer (s : State) : State :=
  { s with cues := { s.cues with
    busyTimer := if busyTimed s then s.cues.busyTimer.or (some s.params.busyLimit) else none } }

/-- The end of every event: the busy timer follows its condition, and the words the event changed are marked. -/
def settle (s t : State) : State := markWords s (tendBusyTimer t)

/-- A command's meaning: where the pin is released and the event can occur, its effect and then `settle`; else the
event does not occur and nothing changes (log entry 1). -/
def occur (can : Bool) (f : State → State) (s : State) : Host.Outcome State Fault Refusal :=
  if !s.resetPin && can then .next (settle s (f s)) else .next s

end Sys2Proof.Machine
end

