-- ==== Sys2Proof/Machine/Service.lean ====
section
/-! DEFINITION. The Service Change Logic (chapter 7): what a commit report, a time-driven move, a vacate and an expiry
do to cues, footnotes, highlight, announced platform and last cued delay. -/

namespace Sys2Proof.Machine

/-! ## Vacate and expiry (R126) -/

/-- The message in flight, if it is one of slot i, is of a departure that is no more (R115, R122). -/
def disown (i : Nat) (s : State) : State :=
  { s with cues := { s.cues with
    msg := s.cues.msg.map fun m => if m.cue.slot = some i then { m with gone := true } else m } }

/-- Slot i has become VACANT or EXPIRED (R126): its cues leave the queue, footnotes that refer to it become none, its
highlight stops, its announced platform and last cued delay are forgotten. -/
def forget (i : Nat) (s : State) : State :=
  let s := disown i (removeCues (ofSlot i) s)
  let s := mapFootnotes (fun _ n => if refersTo i n then none else n) s
  modSlot i (fun x => { x with highlight := none, announced := 0, lastCued := none }) s

/-! ## Platforms announced (R115, R119) -/

/-- The announced platform takes the record's platform when it is 0 (R115). A change of it is noted, since an expiry by
the same commit forgets it again (R126). -/
def announceFromRecord (i : Nat) (s : State) : State :=
  noteIf (decide ((slotAt s i).announced = 0 ∧ platformOf s i ≠ 0)) (statusOffset i)
    (modSlot i (fun x => if x.announced = 0 then { x with announced := (x.applied.map (·.platform)).getD 0 } else x) s)

/-- The platform passengers are told or are about to hear: the to-platform of a PLATFORM_CHANGE message of the slot in
flight, else the announced platform (R118, R119). -/
def toldPlatform (s : State) (i : Nat) : Nat :=
  match s.cues.msg with
  | some m => if m.cue.kind = .platformChange ∧ m.cue.slot = some i then m.cue.platform else (slotAt s i).announced
  | none => (slotAt s i).announced

/-! ## Footnotes and highlight (R117, R118, R120) -/

/-- The footnotes of a move of slot i from platform a to q, where 0 stands for none (R117, R120): board a and every other
board that refers to i direct to q; board q, if it refers to i, is cleared. -/
def redirect (a q i : Nat) (s : State) : State :=
  mapFootnotes (fun p n =>
    if s.params.p < p then n
    else if p = q then (if refersTo i n then none else n)
    else if p = a ∨ refersTo i n then some { slot := i, toPlatform := q, left := s.params.changeHold }
    else n) s

/-- The slot's highlight starts or restarts at the change hold (R82). -/
def startHighlight (i : Nat) (s : State) : State :=
  modSlot i (fun x => { x with highlight := some s.params.changeHold }) s

/-- The slot's highlight stops (R82). -/
def stopHighlight (i : Nat) (s : State) : State := modSlot i (fun x => { x with highlight := none }) s

/-! ## The rules for one slot with its new record -/

/-- The announce window of slot i with a record (R72). -/
def windowOpen (s : State) (i : Nat) (r : Record) : Bool := announceOpen s.params s.clock r (keOf s i)

/-- The highlight at a platform change: stopped at a reversion, else started (R118). -/
def changeHighlight (i : Nat) (r : Record) (s : State) : State :=
  if r.cancelled = false ∧ r.platform = toldPlatform s i then stopHighlight i s else startHighlight i s

/-- The PLATFORM_CHANGE cue of slot i from the platform told to the record's (R118). -/
def platformCue (s : State) (i : Nat) (r : Record) : Cue :=
  { slotCue .platformChange i r s.params.repeats with fromPlatform := toldPlatform s i }

/-- The cue actions at a platform change (R118): the waiting cue is removed when the record is cancelled, at a reversion
and when the window is closed; otherwise a cue is made, or replaces the one that waits. -/
def changeCue (i : Nat) (r : Record) (s : State) : State :=
  if r.cancelled ∨ r.platform = toldPlatform s i ∨ windowOpen s i r = false then
    removeCues (ofKind .platformChange i) s
  else makeCue (platformCue s i r) s

/-- A cancellation (R121). -/
def cancelCues (i : Nat) (r : Record) (s : State) : State :=
  let s := removeCues (fun c => ofKind .platformChange i c || ofKind .delay i c || ofKind .boarding i c) s
  if windowOpen s i r then makeCue (slotCue .cancellation i r s.params.repeats) s else s

/-- A reinstatement (R121). -/
def reinstate (i : Nat) (s : State) : State := removeCues (ofKind .cancellation i) s

/-- The delay rule (R122), for a record that is not cancelled. -/
def delayRule (i : Nat) (r : Record) (s : State) : State :=
  if r.cancelled then s
  else if delayCueDue s.params s.clock r (keOf s i) (slotAt s i).lastCued then
    makeCue { slotCue .delay i r 0 with delay := r.delay } s
  else removeCues (ofKind .delay i) s

/-- The cues a commit's new state removes (R124): BOARDING at SCHEDULED, DELAY and BOARDING at DEPARTING. -/
def commitCourse (i : Nat) (s : State) : State :=
  match (slotAt s i).state with
  | .scheduled => removeCues (ofKind .boarding i) s
  | .departing => removeCues (fun c => ofKind .boarding i c || ofKind .delay i c) s
  | _ => s

/-- The parameters of a waiting cue refreshed from the record (R123). -/
def Cue.refresh (r : Record) (c : Cue) : Cue :=
  { c with
    service := r.service
    destination := r.destination
    expected := r.expected
    platform := if c.kind = .platformChange then c.platform else r.platform }

/-- Announce off, and the refresh of the slot's waiting cues (R123). -/
def refreshCues (i : Nat) (r : Record) (s : State) : State :=
  if r.announce = false then removeCues (ofSlot i) s
  else { s with cues := { s.cues with
    queue := s.cues.queue.map fun c => if ofSlot i c then c.refresh r else c } }

/-! ## The commit report (R116) -/

/-- A slot had a departure on the wall before: its old state is neither VACANT nor EXPIRED (R116). -/
def isCompared (old : Slot) : Bool := decide (old.state ≠ .vacant) && decide (old.state ≠ .expired)

/-- The platform of a slot's old applied record. -/
def oldPlatform (old : Slot) : Nat := (old.applied.map (·.platform)).getD 0

/-- The old record was cancelled. -/
def oldCancelled (old : Slot) : Bool := (old.applied.map (·.cancelled)).getD false

/-- The platform kind's footnotes and highlight (R117, R118, R120). -/
def reportBoards (i : Nat) (old : Slot) (r : Record) (s : State) : State :=
  if isCompared old ∧ oldPlatform old ≠ r.platform then
    let s := redirect (oldPlatform old) r.platform i s
    if oldPlatform old ≠ 0 ∧ r.platform ≠ 0 then changeHighlight i r s else s
  else s

/-- The cancellation kind (R121). -/
def reportCancellation (i : Nat) (old : Slot) (r : Record) (s : State) : State :=
  if isCompared old then
    if oldCancelled old = false ∧ r.cancelled then cancelCues i r s
    else if oldCancelled old ∧ r.cancelled = false then reinstate i s
    else s
  else s

/-- The platform kind's cue actions: of a platform change (R118), of a withdrawal (R120). -/
def reportPlatformCue (i : Nat) (old : Slot) (r : Record) (s : State) : State :=
  if isCompared old ∧ oldPlatform old ≠ 0 ∧ oldPlatform old ≠ r.platform then
    if r.platform = 0 then removeCues (ofKind .platformChange i) s else changeCue i r s
  else s

/-- A commit report that is not quiet, in the order of R116 (R124's removals stand before R123, log entry 15). -/
def loudReport (i : Nat) (old : Slot) (r : Record) (s : State) : State :=
  announceFromRecord i (refreshCues i r (commitCourse i (delayRule i r (reportPlatformCue i old r
    (reportCancellation i old r (reportBoards i old r s))))))

/-- A quiet commit report (R125). -/
def quietReport (i : Nat) (s : State) : State := announceFromRecord i (removeCues (ofSlot i) s)

/-- The commit report of a record taken (R116). `old` is the slot before the commit. -/
def commitReport (i : Nat) (old : Slot) (r : Record) (quiet : Bool) (s : State) : State :=
  if quiet then quietReport i s else loudReport i old r s

/-! ## Time-driven moves (R124) -/

/-- A move of slot i from one state to another by the passage of time (R124). -/
def moveReport (i : Nat) (left reached : SlotState) (s : State) : State :=
  match left, reached with
  | .scheduled, .boarding =>
    match (slotAt s i).applied with
    | some r => if windowOpen s i r then makeCue (slotCue .boarding i r 0) s else s
    | none => s
  | .scheduled, .departing | .boarding, .departing =>
    removeCues (fun c => ofKind .delay i c || ofKind .boarding i c) s
  | _, .expired => forget i s
  | _, _ => s

/-! ## Outcomes of slot messages (R115, R119, R122) -/

/-- A slot message was presented: a PLATFORM_CHANGE sets the announced platform, a DELAY the last cued delay; ignored
for a slot that has become VACANT or EXPIRED since the message began. -/
def reportPresented (m : Message) (s : State) : State :=
  match m.cue.slot with
  | some i =>
    if m.gone then s
    else if m.cue.kind = .platformChange then modSlot i (fun x => { x with announced := m.cue.platform }) s
    else if m.cue.kind = .delay then modSlot i (fun x => { x with lastCued := some m.cue.delay }) s
    else s
  | none => s

/-- The from-platform of slot i's waiting PLATFORM_CHANGE record is set back to the announced platform; a record that
then goes nowhere is removed and the highlight stopped, with the comparison of R93 (R119). -/
def setBackFrom (i : Nat) (s : State) : State :=
  let a := (slotAt s i).announced
  if s.cues.queue.any (fun c => ofKind .platformChange i c && decide (c.platform = a)) then
    compared none (stopHighlight i) (removeCues (ofKind .platformChange i) s)
  else { s with cues := { s.cues with
    queue := s.cues.queue.map fun c => if ofKind .platformChange i c then { c with fromPlatform := a } else c } }

/-- A slot message was aborted: a PLATFORM_CHANGE whose record was replaced or removed in its flight (R119). -/
def reportAborted (m : Message) (s : State) : State :=
  match m.cue.slot with
  | some i => if m.cue.kind = .platformChange ∧ m.condition ≠ .unchanged then setBackFrom i s else s
  | none => s

end Sys2Proof.Machine
end

