-- ==== Sys2Proof/Machine/Slots.lean ====
section
/-! DEFINITION. The Slot Table (chapter 2): taking a record, vacating, and the day roll and second event of a time
advance. -/

namespace Sys2Proof.Machine

/-! ## Taking a record (R26 to R30) -/

/-- The slot with its staged record applied (R26 to R28, R39, R40). -/
def Slot.take (q : Params) (c : Clock) (x : Slot) : Slot :=
  { x with
    applied := some (recordOf x.staging)
    keys := some (keysOf c.roll (recordOf x.staging))
    state := stateFor q c (recordOf x.staging).cancelled (keysOf c.roll (recordOf x.staging)).ke
    lastResult := .taken
    capped := decide (719 < rawDelay x.staging)
    generation := commitGeneration (stagedWord x.staging 5) }

/-- The cause class of a record taken over an old one (R90). -/
def takenUrgent (old : Option Record) (r : Record) : Bool :=
  match old with
  | some o => (decide (o.platform ≠ 0) && decide (o.platform ≠ r.platform)) || (!o.cancelled && r.cancelled)
  | none => false

/-- An expiry by a commit is handled after every action of the report (R126). -/
def forgetExpired (i : Nat) (s : State) : State := if (slotAt s i).state = .expired then forget i s else s

/-- The hand-offs of a record taken, less the comparison: the slot, the Row Map, the commit report (R29). -/
def applyRecord (i : Nat) (quiet : Bool) (s : State) : State :=
  let old := slotAt s i
  let s := place i (setSlot i (old.take s.params s.clock) s)
  forgetExpired i (commitReport i old (recordOf old.staging) quiet s)

/-- A record is taken, with the comparison of R89 at its cause class (R90). -/
def takeRecord (i : Nat) (quiet : Bool) (s : State) : State :=
  compared (some { slot := i, urgent := takenUrgent (slotAt s i).applied (recordOf (slotAt s i).staging) })
    (applyRecord i quiet) s

/-! ## Vacating (R31, R42) -/

/-- The slot made VACANT, with this last result and generation. -/
def Slot.vacate (result : LastResult) (generation : Nat) (x : Slot) : Slot :=
  { x with
    applied := none, keys := none, state := .vacant, lastResult := result, capped := false, generation := generation }

/-- The slot is vacated (R31), with the comparison of R89 at the URGENT class of a vacate (R90). -/
def vacateSlot (i : Nat) (result : LastResult) (generation : Nat) (s : State) : State :=
  compared (some { slot := i, urgent := true })
    (fun s => forget i (unplace i (modSlot i (Slot.vacate result generation) s))) s

/-! ## A commit considered (R24, R25, R31, R39, R40) -/

/-- A commit that is considered, judged from the staging copy. -/
def considerCommit (i : Nat) (loading : Bool) (s : State) : State :=
  let x := slotAt s i
  let w := stagedWord x.staging 5
  if commitValid w then
    match refusalOf s.params.p x.staging with
    | some code => modSlot i (fun x => { x with lastResult := code }) s
    | none => takeRecord i (commitQuiet w || loading) s
  else vacateSlot i .taken (commitGeneration w) s

/-- A load outcome (R42). -/
def loadOutcome (i : Nat) (faulted : Bool) (s : State) : State :=
  let x := slotAt s i
  let w := stagedWord x.staging 5
  if faulted then vacateSlot i .loadFault x.generation s
  else if commitValid w then
    match refusalOf s.params.p x.staging with
    | some code => vacateSlot i code x.generation s
    | none => takeRecord i true s
  else vacateSlot i .taken (commitGeneration w) s

/-! ## The day roll and the second event (R32 to R35) -/

/-- The slots that the day roll forces to EXPIRED (R34). -/
def forcedByRoll (s : State) : List Nat :=
  s.slots.zipIdx.filterMap fun e =>
    if e.1.state.active ∧ (e.1.keys.map (·.offset)) = some (-1) then some e.2 else none

/-- Every EXPIRED or VACANT slot leaves the row map; the order of the others stays (R76). -/
def pruneRowMap (s : State) : State := { s with rowMap := s.rowMap.filter fun i => (slotAt s i).state.active }

/-- A day roll (R34): the active slots are rebased or forced to EXPIRED, and DAY_ROLL is pended (R53). -/
def dayRoll (s : State) : State :=
  (forcedByRoll s).foldl (fun t i => forget i t)
    (pruneRowMap (pend .dayRoll { s with slots := s.slots.map Slot.rebase }))

/-- The moves the present time brings: slot, state left, state reached, by ascending slot (R32). -/
def dueMoves (s : State) : List (Nat × SlotState × SlotState) :=
  s.slots.zipIdx.filterMap fun e => (dueMove s.params s.clock e.1).map fun n => (e.2, e.1.state, n)

/-- A slot moved to the state the time gives. -/
def Slot.advance (q : Params) (c : Clock) (x : Slot) : Slot :=
  match dueMove q c x with
  | some n => { x with state := n }
  | none => x

/-- The moves reported to the Service Change Logic one after another. -/
def reportMoves (moves : List (Nat × SlotState × SlotState)) (s : State) : State :=
  moves.foldl (fun t m => moveReport m.1 m.2.1 m.2.2 t) s

/-- The re-evaluation of the active slots (R32). Every slot moves on its own; where more than one moves, the order of
their reports is a free choice (log entry 12). -/
def reevaluate (s : State) : State :=
  if s.clock.isSet then
    let moves := dueMoves s
    let t := pruneRowMap { s with slots := s.slots.map (Slot.advance s.params s.clock) }
    if moves.length ≤ 1 then reportMoves moves t
    else reportMoves (arrange (Config.openOrder s.freeCount) moves) { t with freeCount := t.freeCount + 1 }
  else s

/-- A running timer after seconds have passed: it runs out when they are at least what remains (R81, R82). -/
def countDown (passed : Nat) (left : Nat) : Option Nat := if left ≤ passed then none else some (left - passed)

/-- The footnote and highlight timers over the seconds passed (R81, R82). -/
def runTimers (passed : Nat) (s : State) : State :=
  let s := mapFootnotes (fun _ n => n.bind fun r => (countDown passed r.left).map fun l => { r with left := l }) s
  { s with slots := s.slots.map fun x => { x with highlight := x.highlight.bind (countDown passed) } }

end Sys2Proof.Machine
end

