-- ==== Sys2Proof/Machine/Notices.lean ====
section
/-! DEFINITION. The Notice Unit (chapter 9): the rotation, fetching a chain, the end of a fetch, posting, withdrawal and
expiry. -/

namespace Sys2Proof.Machine

/-! ## The rotation (R163, R164) -/

/-- An entry is ACTIVE. -/
def isActive (s : State) (i : Nat) : Bool := decide ((entryAt s i).state = .active)

/-- The entry an advance selects: the lowest ACTIVE index above the rotation's, else the lowest ACTIVE at or below. -/
def nextShown (s : State) : Option Nat :=
  ((List.range Config.noticeCount).find? fun i => decide (s.notices.rotIndex < i) && isActive s i).or
    ((List.range Config.noticeCount).find? fun i => isActive s i)

/-- The rotation shows an entry, or none; the dwell timer starts with the entry's dwell, or stops (R163). -/
def showEntry (n : Option Nat) (s : State) : State :=
  match n with
  | some i => { s with notices := { s.notices with
      shown := some i, rotIndex := i, dwellTimer := some (entryAt s i).dwell } }
  | none => { s with notices := { s.notices with shown := none, dwellTimer := none } }

/-- The mark of the ticker drop at an advance: URGENT for a DISRUPTION, else ROUTINE (R163). -/
def tickerMark (s : State) : Mark :=
  match s.notices.shown with
  | some i => markFor s.params.tickerDrop (decide ((entryAt s i).cls = .disruption)) none
  | none => markFor s.params.tickerDrop false none

/-- An advance of the rotation, its mark not yet handed over. -/
def advanceRotation (s : State) : State := showEntry (nextShown s) s

/-- An advance of the rotation. -/
def rotate (s : State) : State := handMark (tickerMark (advanceRotation s)) (advanceRotation s)

/-- The entry shown is selected again, its text replaced (R163). -/
def reshow (i : Nat) (s : State) : State :=
  handMark (tickerMark (showEntry (some i) s)) (showEntry (some i) s)

/-! ## The end of a fetch (R160) -/

/-- How a fetch ends. -/
inductive FetchEnd where
  | ok
  | truncated
  | badAlign (addr : Nat)
  | outOfRange (addr : Nat)
  | memoryFault (addr : Nat)
  | emptyText
deriving DecidableEq, Repr

/-- OK and TRUNCATED are successes (R158). -/
def FetchEnd.success : FetchEnd → Bool
  | .ok | .truncated => true
  | _ => false

/-- The result an end gives. -/
def FetchEnd.result : FetchEnd → NoticeResult
  | .ok => .ok
  | .truncated => .truncated
  | .badAlign _ => .badAlign
  | .outOfRange _ => .outOfRange
  | .memoryFault _ => .memoryFault
  | .emptyText => .emptyText

/-- The error address an end gives; 0 for an end without one. -/
def FetchEnd.addr : FetchEnd → Nat
  | .badAlign a | .outOfRange a | .memoryFault a => a
  | _ => 0

/-- An entry finished (the table of R160). -/
def Entry.finish (r : FetchReq) (text : List Byte) (e : FetchEnd) (x : Entry) : Entry :=
  if e.success then
    { x with
      state := .active, cls := r.cls, dwell := r.dwell, minutes := r.lifetime, phrase := r.phrase, text := text,
      replacing := false, result := e.result, errAddr := 0 }
  else
    { x with
      state := if x.state = .active then .active else .empty
      replacing := false, result := e.result, errAddr := e.addr }

/-- The head request's fetch ends (R160): the entry is finished, NOTICE_DONE pended, a NOTICE cue made, the rotation
follows. The next request has not yet begun. -/
def finishFetch (e : FetchEnd) (s : State) : State :=
  match s.notices.queue with
  | [] => s
  | r :: rest =>
    let buf := (s.notices.fetch.map (·.buf)).getD []
    let s := modEntry r.entry (Entry.finish r buf e) { s with notices := { s.notices with
      queue := rest, fetch := none } }
    let s := pend .noticeDone s
    if e.success then
      let s := if r.phrase = 0 then s else makeCue (phraseCue .notice r.phrase 0) s
      match s.notices.shown with
      | none => rotate s
      | some i => if i = r.entry then reshow i s else s
    else s

/-! ## Fetching (R155 to R159) -/

/-- The memory limit in bytes (R156). -/
def memLimitBytes (s : State) : Nat := s.params.memLimit * 0x10000

/-- The progress of a fetch that begins (R155). -/
def Fetch.begin (chain : Nat) : Fetch :=
  { addr := chain, stage := .descriptor 0, count := 0, buf := [], nextAddr := 0, len := 0, pos := 0, left := 0,
    more := false }

/-- An own read of source FETCH is requested (R11). -/
def requestFetch (addr : Nat) (s : State) : State :=
  { s with mem := { s.mem with reads := s.mem.reads ++ [{ addr := addr, source := .fetch }] } }

/-- The request at the head begins, if no fetch is in progress and no abandoned read waits for its answer (R155, R161).
A chain address beyond the limit ends the fetch at once (R156) and lets the next begin: `n` bounds how many. -/
def beginFetches : Nat → State → State
  | 0, s => s
  | n + 1, s =>
    match s.notices.queue with
    | [] => s
    | r :: _ =>
      if s.notices.fetch.isSome || s.notices.orphan then s
      else
        let t := { s with notices := { s.notices with fetch := some (Fetch.begin r.chain) } }
        if memLimitBytes s ≤ r.chain then beginFetches n (finishFetch (.outOfRange r.chain) t)
        else requestFetch r.chain t

/-- A fetch ends, and the next request begins at once (R160). -/
def endFetch (e : FetchEnd) (s : State) : State :=
  let t := finishFetch e s
  beginFetches t.notices.queue.length t

/-- The fetch goes on with the read at its address, if that lies below the limit (R156). -/
def continueFetch (f : Fetch) (s : State) : State :=
  let t := { s with notices := { s.notices with fetch := some f } }
  if memLimitBytes s ≤ f.addr then endFetch (.outOfRange f.addr) t else requestFetch f.addr t

/-- The end of a fragment (the table of R158). -/
def endFragment (f : Fetch) (s : State) : State :=
  let t := { s with notices := { s.notices with fetch := some f } }
  if f.buf.length = 0 ∧ (f.nextAddr = 0 ∨ f.count = Config.fragmentMax) then endFetch .emptyText t
  else if f.more then endFetch .truncated t
  else if f.nextAddr = 0 then endFetch .ok t
  else if f.buf.length = Config.textMax ∨ f.count = Config.fragmentMax then endFetch .truncated t
  else if f.nextAddr % 4 ≠ 0 then endFetch (.badAlign f.nextAddr) t
  else continueFetch { f with addr := f.nextAddr, stage := .descriptor 0 } s

/-- The bytes a text word gives: the lanes from the next text byte's on, as many as are still to take (R157). -/
def textBytes (pos left : Nat) (w : Word) : List Byte :=
  ((List.range 4).filter fun k => decide (pos % 4 ≤ k) && decide (k < pos % 4 + left)).map (laneByte w)

/-- The third descriptor word has been read: the fragment begins (R157, R158). -/
def beginFragment (f : Fetch) (text : Nat) (s : State) : State :=
  let m := min f.len (Config.textMax - f.buf.length)
  let f := { f with count := f.count + 1, pos := text, left := m, more := decide (m < f.len) }
  if m = 0 then endFragment f s else continueFetch { f with addr := text - text % 4, stage := .text } s

/-- A text word has been read (R157). -/
def takeText (f : Fetch) (w : Word) (s : State) : State :=
  let bytes := textBytes f.pos f.left w
  let f := { f with
    buf := f.buf ++ bytes, pos := f.pos + bytes.length, left := f.left - bytes.length, addr := f.addr + 4 }
  if f.left = 0 then endFragment f s else continueFetch f s

/-- A read of the fetch in progress has been answered (R155). -/
def fetchAnswer (w : Word) (f : Fetch) (s : State) : State :=
  match f.stage with
  | .descriptor 0 => continueFetch { f with nextAddr := w.toNat, addr := f.addr + 4, stage := .descriptor 1 } s
  | .descriptor 1 => continueFetch { f with len := fragmentLength w, addr := f.addr + 4, stage := .descriptor 2 } s
  | .descriptor _ => beginFragment f w.toNat s
  | .text => takeText f w s

/-- The answer of an own read of source FETCH reaches the Notice Unit: discarded for an abandoned fetch (R161), a
failure ends the fetch with MEMORY_FAULT (R159), data carries it on. -/
def deliverFetch (addr : Nat) (data : Word) (err : Bool) (s : State) : State :=
  if s.notices.orphan then
    let t := { s with notices := { s.notices with orphan := false } }
    beginFetches t.notices.queue.length t
  else
    match s.notices.fetch with
    | none => s
    | some f => if err then endFetch (.memoryFault addr) s else fetchAnswer data f s

/-! ## Posting (R153, R154) -/

/-- The FETCHING or ACTIVE entry with an id (R151). -/
def entryWithId (s : State) (id : Nat) : Option Nat :=
  (List.range Config.noticeCount).find? fun i =>
    decide ((entryAt s i).state ≠ .empty) && decide ((entryAt s i).id = id)

/-- The EMPTY entry with the lowest index (R154). -/
def lowestEmpty (s : State) : Option Nat :=
  (List.range Config.noticeCount).find? fun i => decide ((entryAt s i).state = .empty)

/-- The parameters of POST NOTICE (section 11.2). -/
structure Post where
  id : Nat
  cls : Nat
  dwell : Nat
  lifetime : Nat
  phrase : Nat
  chain : Nat
deriving DecidableEq, Repr

/-- The parameters from the command words. -/
def postOf (words : List Word) : Post :=
  { id := field (commandWord words 1) 0 8, cls := field (commandWord words 1) 8 2,
    dwell := field (commandWord words 1) 16 8, lifetime := field (commandWord words 2) 0 16,
    phrase := field (commandWord words 2) 16 16, chain := (commandWord words 3).toNat }

/-- The first check of R153 fails. -/
def Post.bad (p : Post) : Bool :=
  decide (p.id = 0) || decide (2 < p.cls) || decide (p.dwell < 2) || decide (60 < p.dwell) ||
    decide (1440 < p.lifetime) || decide (4095 < p.phrase) || decide (p.chain = 0) || decide (p.chain % 4 ≠ 0)

/-- The class code of a notice (section 11.5). -/
def noticeClassOf : Nat → NoticeClass
  | 1 => .delay
  | 2 => .disruption
  | _ => .info

/-- An entry with this id has a fetch request queued or in progress (R153). -/
def fetchPending (s : State) (id : Nat) : Bool :=
  match entryWithId s id with
  | some i => decide ((entryAt s i).state = .fetching) || (entryAt s i).replacing
  | none => false

/-- The refusal of a post: the first check that fails (R153). -/
def postRefusal (s : State) (p : Post) : Option Secondary :=
  if p.bad then some .badParameter
  else if fetchPending s p.id then some .wrongState
  else if Config.fetchCapacity ≤ s.notices.queue.length then some .queueFull
  else if entryWithId s p.id = none ∧ lowestEmpty s = none then some .tableFull
  else none

/-- An entry reserved for a new notice (R154). -/
def reservedEntry (id : Nat) : Entry := { Entry.reset with id := id, state := .fetching, result := .accepted }

/-- The request joins the fetch queue, and begins if it can (R154, R155). -/
def queueFetch (i : Nat) (p : Post) (s : State) : State :=
  let r : FetchReq := { entry := i, id := p.id, cls := noticeClassOf p.cls, dwell := p.dwell, lifetime := p.lifetime,
                        phrase := p.phrase, chain := p.chain }
  let t := { s with notices := { s.notices with queue := s.notices.queue ++ [r] } }
  beginFetches t.notices.queue.length t

/-- An entry is changed by a post. Its words are noted, since its fetch may end at once and change them back (R156). -/
def changeEntry (i : Nat) (f : Entry → Entry) (s : State) : State := noteEntry i s (modEntry i f s)

/-- POST NOTICE (R153, R154). -/
def postNotice (words : List Word) (s : State) : State :=
  let p := postOf words
  match postRefusal s p with
  | some q => refuse q s
  | none =>
    match entryWithId s p.id with
    | some i =>
      completeDone [resultOf i, 1]
        (queueFetch i p (changeEntry i (fun e => { e with replacing := true, result := .accepted }) s))
    | none =>
      match lowestEmpty s with
      | some i => completeDone [resultOf i, 0] (queueFetch i p (changeEntry i (fun _ => reservedEntry p.id) s))
      | none => refuse .tableFull s

/-! ## Withdrawal (R161) -/

/-- What became of the fetch of a withdrawn notice (section 11.2). -/
inductive Withdrawn where
  | noFetch
  | removed
  | abandoned
deriving DecidableEq, Repr

/-- Its code. -/
def Withdrawn.code : Withdrawn → Nat
  | .noFetch => 0
  | .removed => 1
  | .abandoned => 2

/-- What becomes of the fetch request of entry i at a withdrawal (R161): the head request is in progress when a fetch
is; any other has not begun. -/
def withdrawnFetch (s : State) (i : Nat) : Withdrawn :=
  match s.notices.queue with
  | [] => .noFetch
  | r :: rest =>
    if r.entry = i ∧ s.notices.fetch.isSome then .abandoned
    else if (r :: rest).any (fun r => decide (r.entry = i)) then .removed
    else .noFetch

/-- The fetch request of entry i leaves the queue; one in progress leaves its read to be answered (R161). -/
def dropFetch (i : Nat) (s : State) : State :=
  let queue := s.notices.queue.filter fun r => decide (r.entry ≠ i)
  match withdrawnFetch s i with
  | .abandoned => { s with notices := { s.notices with queue := queue, fetch := none, orphan := true } }
  | _ => { s with notices := { s.notices with queue := queue } }

/-- An entry that holds no notice any more keeps its id and takes a result (R151, log entry 17). -/
def Entry.emptied (result : NoticeResult) (e : Entry) : Entry := { Entry.reset with id := e.id, result := result }

/-- The rotation advances if the entry it shows is ACTIVE no more (R163). -/
def rotateIfGone (s : State) : State :=
  match s.notices.shown with
  | some i => if isActive s i then s else rotate s
  | none => s

/-- WITHDRAW NOTICE (R161). -/
def withdrawNotice (words : List Word) (s : State) : State :=
  match entryWithId s (field (commandWord words 1) 0 8) with
  | none => refuse .notFound s
  | some i =>
    let code := (withdrawnFetch s i).code
    completeDone [resultOf i, resultOf code]
      (rotateIfGone (modEntry i (Entry.emptied .withdrawn) (dropFetch i s)))

/-! ## Expiry (R162) -/

/-- An entry over the minutes passed (R162): counted down, or expired to EMPTY, or to FETCHING if it is replacing. -/
def Entry.age (passed : Nat) (e : Entry) : Entry :=
  if e.state = .active ∧ e.minutes ≠ 0 then
    if e.minutes ≤ passed then
      { Entry.emptied .expired e with
        state := if e.replacing then .fetching else .empty
        errAddr := e.errAddr }
    else { e with minutes := e.minutes - passed }
  else e

/-- Every entry over the minutes passed (R162). -/
def ageNotices (passed : Nat) (s : State) : State :=
  { s with notices := { s.notices with entries := s.notices.entries.map (Entry.age passed) } }

/-- The Notice Unit's part of a minute event: lifetimes, then an advance if the entry shown is ACTIVE no more; with the
mark the advance makes (R162, R163, log entry 14). -/
def noticeMinutes (passed : Nat) (s : State) : State × List Mark :=
  let t := ageNotices passed s
  match t.notices.shown with
  | some i => if isActive t i then (t, []) else (advanceRotation t, [tickerMark (advanceRotation t)])
  | none => (t, [])

end Sys2Proof.Machine
end

