-- ==== Sys2Proof/Machine/TimeBase.lean ====
section
/-! DEFINITION. The Time Base (chapter 3): ticks, pulses, time advances, SET CLOCK and SET SOURCE. -/

namespace Sys2Proof.Machine

/-! ## Time advances (R52, R53) -/

/-- A change of T as the other blocks are told of it (R52). `leaving` says that the clock leaves UNSET with it. -/
structure Advance where
  old : Nat
  new : Nat
  roll : Bool
  leaving : Bool
deriving DecidableEq, Repr

/-- T differs, or a day roll was applied, or the clock leaves UNSET: otherwise there is no time advance (R52). -/
def Advance.happens (a : Advance) : Bool := a.leaving || a.roll || decide (a.new ≠ a.old)

/-- Seconds passed (R52): 0 if T decreased without a roll, and on leaving UNSET. -/
def Advance.seconds (a : Advance) : Nat :=
  if a.leaving then 0 else if a.roll then a.new + 86400 - a.old else a.new - a.old

/-- The minute changed (R52). -/
def Advance.minuteEvent (a : Advance) : Bool := a.leaving || a.roll || decide (a.new / 60 ≠ a.old / 60)

/-- Minutes passed (R52). -/
def Advance.minutes (a : Advance) : Nat :=
  if a.leaving then 0 else if a.roll then a.new / 60 + 1440 - a.old / 60 else a.new / 60 - a.old / 60

/-- The day roll and the second event of an advance, T standing at its new value (R53). -/
def advanceSlots (a : Advance) (s : State) : State :=
  runTimers a.seconds (reevaluate (if a.roll then dayRoll s else s))

/-- T takes its new value. -/
def setT (t : Nat) (s : State) : State := { s with clock := { s.clock with t := t } }

/-- A time advance delivered to the blocks (R52, R53): day roll, second event, minute event. The comparison of R89 is
made once over the whole of it, from the state `was` before the event. `stateChanged` says that the clock state changed with it, which marks the clock drop
too (R61). The order of the blocks' marks is open (log entry 12). -/
def timeAdvance (a : Advance) (stateChanged : Bool) (was s : State) : State :=
  if a.happens then
    let t := advanceSlots a (setT a.new s)
    let n := if a.minuteEvent then noticeMinutes a.minutes t else (t, [])
    handGroups [contentMarks none was t, n.2, if a.minuteEvent || stateChanged then [clockMark s] else []] n.1
  else if stateChanged then handMark (clockMark s) s
  else s

/-! ## Ticks (R49 to R51, R54) -/

/-- T after some seconds, wrapped at the roll instant, and whether it wrapped (R51). -/
def wrapT (t : Nat) : Nat × Bool := if 86400 ≤ t then (t - 86400, true) else (t, false)

/-- A tick (R51, R54): by 1, by 2 while a positive remainder is absorbed, alternately by 1 and 0 for a negative one. With
it, whether T wrapped. -/
def Clock.tick (c : Clock) : Clock × Bool :=
  if 0 < c.slew then
    ({ c with t := (wrapT (c.t + 2)).1, slew := c.slew - 1 }, (wrapT (c.t + 2)).2)
  else if c.slew < 0 ∧ c.holdNext then ({ c with slew := c.slew + 1, holdNext := false }, false)
  else if c.slew < 0 then ({ c with t := (wrapT (c.t + 1)).1, holdNext := true }, (wrapT (c.t + 1)).2)
  else ({ c with t := (wrapT (c.t + 1)).1 }, (wrapT (c.t + 1)).2)

/-- A minute pulse snaps the clock to the nearest minute (R49). -/
def Clock.snap (c : Clock) : Clock × Bool :=
  if 30 ≤ c.t % 60 then ({ c with t := (wrapT (c.t - c.t % 60 + 60)).1 }, (wrapT (c.t - c.t % 60 + 60)).2)
  else ({ c with t := c.t - c.t % 60 }, false)

/-- The loss timer's duration in milliseconds (section 3.3): 1.5 s in second mode, 90 s in minute mode. -/
def lossTime : ClockSource → Nat
  | .masterMinute => 90000
  | _ => 1500

/-- A pulse relocks the clock and restarts the loss timer (R49, R50). -/
def Clock.relock (c : Clock) : Clock := { c with state := .locked, loss := some (lossTime c.source) }

/-- What an internal second or a master pulse makes of the clock, with whether T wrapped; none where it is ignored or
withheld (the table of R51). -/
def Clock.event (cause : TickCause) (c : Clock) : Option (Clock × Bool) :=
  match cause, c.state with
  | _, .unset => none
  | .reference, .running => some c.tick
  | .reference, .freerun => some c.tick
  | .reference, .locked =>
    if c.source = .masterMinute then (if c.t % 60 = 59 then none else some c.tick) else none
  | .pulse, .running => none
  | .pulse, _ =>
    match c.source with
    | .internal => none
    | .masterSecond => some (c.relock.tick)
    | .masterMinute => some (c.relock.snap)

/-- The clock takes its new value, but for T, which the time advance sets. -/
def setClockKeepT (c : Clock) (s : State) : State := { s with clock := { c with t := s.clock.t } }

/-- A clock event that gives the clock a new value. -/
def applyClock (c : Clock) (roll : Bool) (s : State) : State :=
  let changed := decide (c.state ≠ s.clock.state)
  timeAdvance { old := s.clock.t, new := c.t, roll := roll, leaving := false } changed s
    (pendIf changed .clockChange (setClockKeepT c s))

/-- An internal second or a master pulse (R51). -/
def tickEvent (cause : TickCause) (s : State) : State :=
  match s.clock.event cause with
  | some (c, roll) => applyClock c roll s
  | none => s

/-- The seconds of the internal reference are counted from the release of the pin (R48). -/
def countReference (cause : TickCause) (s : State) : State :=
  match cause with
  | .reference => { s with refTime := s.refTime + 1 }
  | .pulse => s

/-- The whole event of a second of the internal reference or of a master pulse. -/
def timeEvent (cause : TickCause) (s : State) : State := tickEvent cause (countReference cause s)

/-- The time advance an internal second or master pulse would bring now, if any (for the rows that name one of its
parts, log entry 8). -/
def pendingAdvance (cause : TickCause) (s : State) : Option Advance :=
  match s.clock.event cause with
  | some (c, roll) =>
    let a : Advance := { old := s.clock.t, new := c.t, roll := roll, leaving := false }
    if a.happens then some a else none
  | none => none

/-- The loss timer expires (R49, R50): to FREERUN, CLOCK_CHANGE, and the clock drop marked (R61). -/
def loseLock (s : State) : State :=
  handMark (clockMark s)
    (pend .clockChange { s with clock := { s.clock with state := .freerun, loss := none } })

/-! ## SET CLOCK (R55 to R57) -/

/-- The parameters of SET CLOCK (section 11.2). -/
structure ClockTarget where
  hh : Nat
  mm : Nat
  ss : Nat
  force : Bool
deriving DecidableEq, Repr

/-- The parameters from the command words. -/
def clockTargetOf (words : List Word) : ClockTarget :=
  { hh := field (commandWord words 1) 16 8, mm := field (commandWord words 1) 8 8,
    ss := field (commandWord words 1) 0 8, force := flag (commandWord words 1) 24 }

/-- A value out of range (R55). -/
def ClockTarget.bad (p : ClockTarget) : Bool := decide (23 < p.hh) || decide (59 < p.mm) || decide (59 < p.ss)

/-- The target service time T' (R55). -/
def targetT (roll : Nat) (p : ClockTarget) : Nat :=
  (((3600 * p.hh + 60 * p.mm + p.ss : Nat) - 60 * roll : Int) % 86400).toNat

/-- The correction (R56), in -43200..43199. -/
def correction (t target : Nat) : Int := ((target : Int) - t + 43200) % 86400 - 43200

/-- The clock state a source gives when the clock is set (R48). -/
def setState : ClockSource → ClockState
  | .internal => .running
  | _ => .freerun

/-- The slew remainder is set and the slew phase restarts (R54, R57). -/
def setSlew (d : Int) (s : State) : State := { s with clock := { s.clock with slew := d, holdNext := false } }

/-- The clock leaves UNSET (R55). -/
def leaveUnset (target : Nat) (s : State) : State :=
  let t := pend .clockChange (setSlew 0 { s with clock := { s.clock with state := setState s.clock.source } })
  timeAdvance { old := s.clock.t, new := target, roll := false, leaving := true } true s t

/-- A step that changes T, with or without a day roll: it marks the clock word, also within a minute (R56). -/
def stepClock (target : Nat) (roll : Bool) (s : State) : State :=
  timeAdvance { old := s.clock.t, new := target, roll := roll, leaving := false } false s
    (noteIf true clockOffset (pend .clockChange (setSlew 0 s)))

/-- The clock steps: source MASTER_MINUTE, force-step, or a correction of more than 120 s (R56). -/
def mustStep (s : State) (p : ClockTarget) (d : Int) : Bool :=
  decide (s.clock.source = .masterMinute) || p.force || decide (120 < d.natAbs)

/-- SET CLOCK (R55 to R57), with the results of section 11.2. -/
def setClockCommand (words : List Word) (s : State) : State :=
  let p := clockTargetOf words
  let target := targetT s.clock.roll p
  let d := correction s.clock.t target
  if p.bad then refuse .badParameter s
  else if s.clock.state = .unset then completeDone [1] (leaveUnset target s)
  else if mustStep s p d then
    if d = 0 then completeDone [0] (setSlew 0 s)
    else if (s.clock.t : Int) + d < 0 then complete .refused .crossesRoll [0, signedWord d, 0] s
    else if 86400 ≤ (s.clock.t : Int) + d then
      completeDone [3, signedWord d, 1] (stepClock ((s.clock.t : Int) + d - 86400).toNat true s)
    else completeDone [3, signedWord d, 0] (stepClock ((s.clock.t : Int) + d).toNat false s)
  else completeDone [if d = 0 then 0 else 2, signedWord d] (setSlew d s)

/-! ## SET SOURCE (R58) -/

/-- The source replaced: remainder cleared, loss timer stopped, the state that follows (the table of R58). -/
def Clock.withSource (src : ClockSource) (c : Clock) : Clock :=
  { c with
    source := src, slew := 0, holdNext := false, loss := none
    state := if c.state = .unset then .unset else setState src }

/-- A change of source (R58): CLOCK_CHANGE, and the clock drop marked if the clock state changed (R61). -/
def changeSource (src : ClockSource) (s : State) : State :=
  let t := pend .clockChange { s with clock := s.clock.withSource src }
  if t.clock.state = s.clock.state then t else handMark (clockMark t) t

/-- SET SOURCE (R58). -/
def setSourceCommand (words : List Word) (s : State) : State :=
  let code := field (commandWord words 1) 0 8
  if 2 < code then refuse .badParameter s
  else if sourceOf code = s.clock.source then completeDone [resultOf s.clock.source.code] s
  else completeDone [resultOf s.clock.source.code] (changeSource (sourceOf code) s)

/-! ## A new roll minute (R47) -/

/-- The roll minute read by a configuration reading is applied (R47): T moves around civil time on a set clock. -/
def applyRoll (r : Nat) (s : State) : State :=
  if r = s.clock.roll then s
  else if s.clock.state = .unset then { s with clock := { s.clock with roll := r } }
  else
    let target := (((s.clock.civil : Int) - 60 * r) % 86400).toNat
    timeAdvance { old := s.clock.t, new := target, roll := decide (target < s.clock.t), leaving := false } false s
      (pend .clockChange { s with clock := { s.clock with roll := r } })

end Sys2Proof.Machine
end

