-- ==== Sys2Proof/Machine/DisplayLink.lean ====
section
/-! DEFINITION. The Frame Scheduler and Display Link Port (chapter 6): the choice of the next frame, the exchange and its
outcomes, probing, STEP FRAME, SET WALL MODE and PROBE DROPS. -/

namespace Sys2Proof.Machine

/-! ## Sending a frame (R100, R105, R106) -/

/-- The frame of a mark taken, rendered from current state (R106). -/
def frameOf (s : State) (m : Mark) (forStep : Bool) : Frame :=
  let r := render s m.drop
  { drop := m.drop, kind := r.kind, shown := r.shown, urgent := m.urgent, cause := m.cause, forStep := forStep,
    discard := false, bytes := frameBytes m.drop r.kind r.items, window := false }

/-- A mark is taken: it leaves the pending set and its frame is in flight (R98, R106). -/
def sendMark (m : Mark) (forStep : Bool) (s : State) : State :=
  { s with display := { s.display with
    marks := s.display.marks.filter fun e => decide (e.drop ≠ m.drop)
    frame := some (frameOf s m forStep) } }

/-- The PROBE frame of a drop (R113). -/
def probeFrame (a : Nat) : Frame :=
  { drop := a, kind := .probe, shown := none, urgent := false, cause := none, forStep := false, discard := false,
    bytes := frameBytes a .probe [], window := false }

/-- A probe request is taken: it leaves the probe list and its frame is in flight (R106, R111). -/
def sendProbe (a : Nat) (s : State) : State :=
  { s with display := { s.display with
    probes := s.display.probes.filter fun e => decide (e.drop ≠ a)
    frame := some (probeFrame a) } }

/-- The oldest mark of a class: the pending set stands in the order of joining (R97). -/
def oldestMark (urgent : Bool) (s : State) : Option Mark := s.display.marks.find? fun m => decide (m.urgent = urgent)

/-- What the Frame Scheduler chooses. -/
inductive Choice where
  | mark (m : Mark)
  | probe (p : Probe)
deriving DecidableEq, Repr

/-- The older of an URGENT mark and a probe request, in the common order of joining (R100, R111). -/
def olderOf (m : Option Mark) (p : Option Probe) : Option Choice :=
  match m, p with
  | some m, some p => if m.seq < p.seq then some (.mark m) else some (.probe p)
  | some m, none => some (.mark m)
  | none, some p => some (.probe p)
  | none, none => none

/-- The choice of R100 in the present wall mode. -/
def choose (s : State) : Option Choice :=
  match s.display.mode with
  | .run => (olderOf (oldestMark true s) s.display.probes.head?).or ((oldestMark false s).map .mark)
  | .hold => olderOf (oldestMark true s) s.display.probes.head?
  | .freeze => olderOf none s.display.probes.head?

/-- The mark a STEP FRAME takes: the oldest of the highest class present (R105). -/
def stepMark (s : State) : Option Mark := (oldestMark true s).or (oldestMark false s)

/-- A waiting STEP FRAME meets an idle link (R105): it sends its frame, or completes with none to send. -/
def serveStep (s : State) : State :=
  if s.display.step = .waiting ∧ s.display.frame = none then
    match stepMark s with
    | some m => sendMark m true { s with display := { s.display with step := .sending } }
    | none => completeDone [255, 0] { s with display := { s.display with step := .none } }
  else s

/-- The Frame Scheduler on an idle link: a waiting step first, else the choice of R100. -/
def sendFrame (s : State) : State :=
  if s.display.step = .waiting then serveStep s
  else
    match choose s with
    | some (.mark m) => sendMark m false s
    | some (.probe p) => sendProbe p.drop s
    | none => s

/-- A frame can be sent: the link is idle and something can be chosen (R100). -/
def canSend (s : State) : Bool :=
  decide (s.display.frame = none) && (decide (s.display.step = .waiting) || (choose s).isSome)

/-- The last byte of the frame has been transmitted: the reply window opens (R107). -/
def openWindow (s : State) : State :=
  { s with display := { s.display with frame := s.display.frame.map fun f => { f with window := true } } }

/-! ## The outcome of an exchange (R107 to R110, R113) -/

/-- The outcome of an exchange (R107). -/
inductive Exchange where
  | ack
  | nak
  | noReply
deriving DecidableEq, Repr

/-- An ACK on a frame other than a probe (R108). -/
def ackDrop (f : Frame) (s : State) : State :=
  modDrop f.drop (fun d => { d with
    failures := 0
    shown := match d.role with
      | .wall _ => f.shown
      | _ => none }) s

/-- A failure is the drop's third in a row (R110). -/
def isThird (s : State) (a : Nat) : Bool := decide (2 ≤ (dropAt s a).failures)

/-- The drop goes OFFLINE: its marks leave the pending set and DROP_OFFLINE is pended (R110). -/
def takeOffline (a : Nat) (s : State) : State :=
  let s := modDrop a (fun d => { d with online := false, failures := 0 }) s
  pend .dropOffline { s with display := { s.display with
    marks := s.display.marks.filter fun e => decide (e.drop ≠ a) } }

/-- A first or second failure: counted, and the drop re-marked with the class of the mark that was taken (R109). -/
def countFailure (f : Frame) (s : State) : State :=
  joinMark (markFor f.drop f.urgent f.cause) (modDrop f.drop (fun d => { d with failures := d.failures + 1 }) s)

/-- A NAK or NO_REPLY on a frame other than a probe (R109, R110). -/
def failDrop (f : Frame) (s : State) : State := if isThird s f.drop then takeOffline f.drop s else countFailure f s

/-- A probe's ACK: the drop is ONLINE with nothing shown, DROP_ONLINE is pended, and it is marked ROUTINE (R113). The
probe list holds no ONLINE drop (R111), so a request made for it during the exchange leaves the list (log entry 35). -/
def bringOnline (a : Nat) (s : State) : State :=
  let s := modDrop a (fun d => { d with online := true, failures := 0, shown := none }) s
  joinMark (markFor a false none)
    (pend .dropOnline { s with display := { s.display with
      probes := s.display.probes.filter fun e => decide (e.drop ≠ a) } })

/-- The outcome applied to the drop (R96, R108 to R110, R113). -/
def applyOutcome (f : Frame) (o : Exchange) (s : State) : State :=
  if f.discard then s
  else if f.kind = .probe then (if o = .ack then bringOnline f.drop s else s)
  else if o = .ack then ackDrop f s
  else failDrop f s

/-- The outcome code of STEP FRAME (section 11.2): NAK and NO_REPLY have their own code when the drop went OFFLINE. -/
def stepOutcome (o : Exchange) (offline : Bool) : Nat :=
  match o with
  | .ack => 1
  | .nak => if offline then 4 else 2
  | .noReply => if offline then 5 else 3

/-- An exchange ends (R107): the link is idle, the outcome is applied, the STEP FRAME whose frame it was completes
(R105). -/
def endExchange (f : Frame) (o : Exchange) (s : State) : State :=
  let offline := decide (o ≠ .ack) && !f.discard && isThird s f.drop
  let t := applyOutcome f o { s with display := { s.display with frame := none } }
  if f.forStep then
    completeDone [resultOf f.drop, resultOf (stepOutcome o offline)]
      { t with display := { t.display with step := .none } }
  else t

/-- The end of an exchange, and then a STEP FRAME that waited for the link (R105). The first may
change the pending frame count and the second change it back, so the summary word is noted between them. -/
def finishExchange (o : Exchange) (s : State) : State :=
  match s.display.frame with
  | some f =>
    let t := endExchange f o s
    if t.display.step = .waiting then serveStep (noteIf (decide (summaryWord s ≠ summaryWord t)) summaryOffset t) else t
  | none => s

/-- The reply window is open. -/
def windowIsOpen (s : State) : Bool := (s.display.frame.map (·.window)).getD false

/-- The outcome of a reply, one run of bytes: valid when its first four bytes are the drop's address, a reply code and a
correct check (R107, section 11.6). The part acts on nothing that follows them (R179). Where one run ends and the next begins
is the sender's (log entry 38). -/
def replyOutcome (drop : Nat) (bytes : List Byte) : Option Exchange :=
  match bytes with
  | a :: code :: lo :: hi :: _ =>
    if a = byteOf drop ∧ [lo, hi] = twoBytes (sumCheck [a, code]) then
      if code = 0xA1 then some .ack else if code = 0xA2 then some .nak else none
    else none
  | _ => none

/-- The outcome of a reply to the frame in flight, in its reply window; none where it is ignored (R107). -/
def replyTo (s : State) (bytes : List Byte) : Option Exchange :=
  match s.display.frame with
  | some f => if f.window then replyOutcome f.drop bytes else none
  | none => none

/-- A reply received (R107). -/
def receiveReply (bytes : List Byte) (s : State) : State :=
  match replyTo s bytes with
  | some o => finishExchange o s
  | none => s

/-- The outcome of a failure. -/
def failOutcome : FailCause → Exchange
  | .nak => .nak
  | .noReply => .noReply

/-- The exchange in flight is one whose failure takes its drop OFFLINE (R110). -/
def thirdFailure (s : State) : Bool :=
  match s.display.frame with
  | some f => f.window && !f.discard && decide (f.kind ≠ .probe) && isThird s f.drop
  | none => false

/-! ## Probing (R111, R112) -/

/-- A probe request joins the list; a drop already in it keeps its place (R111). -/
def joinProbe (a : Nat) (s : State) : State :=
  if s.display.probes.any fun e => decide (e.drop = a) then s
  else { s with display := { s.display with
    probes := s.display.probes ++ [{ drop := a, seq := s.display.joinSeq }]
    joinSeq := s.display.joinSeq + 1 } }

/-- The drop the probe timer selects: the lowest OFFLINE address above the pointer, else the lowest (R111). -/
def probeTarget (s : State) : Option Nat :=
  ((offlineDrops s).find? fun a => decide (s.display.pointer < a)).or (offlineDrops s).head?

/-- The probe timer expires (R111). -/
def probeTick (s : State) : State :=
  match probeTarget s with
  | some a => joinProbe a { s with display := { s.display with pointer := a } }
  | none => s

/-- PROBE DROPS (R112). -/
def probeDropsCommand (s : State) : State :=
  let off := offlineDrops s
  let new := off.filter fun a => !s.display.probes.any fun e => decide (e.drop = a)
  completeDone [resultOf off.length, resultOf new.length] (off.foldl (fun t a => joinProbe a t) s)

/-! ## Wall mode and STEP FRAME (R99, R104, R105) -/

/-- Wall mode codes (section 11.2). -/
def wallModeOf : Nat → WallMode
  | 1 => .hold
  | 2 => .freeze
  | _ => .run

/-- The wall mode is replaced; leaving HOLD marks the rows that are out of step (R99, R104). -/
def changeMode (m : WallMode) (s : State) : State :=
  let t := { s with display := { s.display with mode := m } }
  if s.display.mode = .hold ∧ m ≠ .hold then handMarks (leavingHoldMarks s) t else t

/-- SET WALL MODE (R99). -/
def setWallModeCommand (words : List Word) (s : State) : State :=
  let code := field (commandWord words 1) 0 8
  if 2 < code then refuse .badParameter s
  else completeDone [resultOf s.display.mode.code] (changeMode (wallModeOf code) s)

/-- STEP FRAME (R105). -/
def stepFrameCommand (s : State) : State :=
  if s.display.mode = .run then refuse .wrongState s
  else serveStep { s with display := { s.display with step := .waiting } }

/-! ## Roles (R96) -/

/-- Both roles are wall rows. -/
def bothWall : Role → Role → Bool
  | .wall _, .wall _ => true
  | _, _ => false

/-- An entry takes its new role (R96). -/
def Drop.takeRole (r : Role) (d : Drop) : Drop :=
  if r = d.role then d
  else if r = .none then Drop.fresh .none
  else if bothWall d.role r then { d with role := r }
  else { d with role := r, shown := none }

/-- The drop table takes the roles of a layout (R96): marks and probe requests of addresses that lose their role leave,
and the outcome of a frame in flight to an address that lost or changed its role is to be discarded. -/
def takeRoles (q : Params) (s : State) : State :=
  let kept := fun a => decide (roleOf q a ≠ .none) || decide ((dropAt s a).role = .none)
  { s with display := { s.display with
    drops := s.display.drops.zipIdx.map fun e => e.1.takeRole (roleOf q e.2)
    marks := s.display.marks.filter fun m => kept m.drop
    probes := s.display.probes.filter fun p => kept p.drop
    frame := s.display.frame.map fun f =>
      { f with discard := f.discard || decide (roleOf q f.drop ≠ (dropAt s f.drop).role) } } }

end Sys2Proof.Machine
end

