-- ==== Sys2Proof/Machine/CueLink.lean ====
section
/-! DEFINITION. The Cue Link Port (sections 8.3 to 8.6) and the commands ISSUE CUE and CLEAR CUES (section 8.5). -/

namespace Sys2Proof.Machine

/-! ## Beginning a message and its bytes (R136, R144 to R146) -/

/-- The present byte of the message in flight is placed on the data outputs and its strobe begins (R144, R145, R146). -/
def beginByte (s : State) : State :=
  match s.cues.msg with
  | some m => { s with cues := { s.cues with
      dataOut := m.bytes.getD m.index 0
      strobe := true
      msg := some { m with ack := .none, pulseOver := false } } }
  | none => s

/-- A message as it begins (R136): rendered from the record as it stands, its record UNCHANGED, under the mode and
timing in force (R143). -/
def messageOf (s : State) (c : Cue) : Message :=
  { cue := c, bytes := messageBytes c, index := 0, condition := .unchanged, gone := false, mode := s.params.linkMode,
    byteLimit := s.params.byteLimit, spacing := s.params.spacing, ack := .none, pulseOver := false }

/-- A message begins: the link enters SENDING, a running gap ends (R135, R136), and the first byte begins. -/
def beginMessage (c : Cue) (s : State) : State :=
  beginByte { s with cues := { s.cues with msg := some (messageOf s c), link := .sending, gapTimer := none } }

/-- The Cue Link Port begins the message of the cue that may begin (R134 to R136). -/
def beginNext (s : State) : State :=
  match cueToBegin s with
  | some c => beginMessage c s
  | none => s

/-! ## Outcomes of a message (R137 to R139, R143, R147) -/

/-- The record of the message in flight, found by its enqueue order (log entry 36), is changed. -/
def modRecord (order : BitVec 32) (f : Cue → Cue) (s : State) : State :=
  { s with cues := { s.cues with queue := s.cues.queue.map fun c => if c.order = order then f c else c } }

/-- The record of the message in flight, found by its enqueue order (log entry 36), leaves the queue (R133). -/
def dropRecord (order : BitVec 32) (s : State) : State :=
  { s with cues := { s.cues with queue := s.cues.queue.filter fun c => decide (c.order ≠ order) } }

/-- A record presented and kept: the next repeat is not begun before the repeat interval in force (R137). -/
def Cue.presented (now interval : Nat) (c : Cue) : Cue :=
  { c with
    aborts := 0
    repeatCount := c.repeatCount + 1
    notBefore := some { time := now + interval, passed := false } }

/-- The presentation is counted against an UNCHANGED record (R137); any other is left alone (R138). -/
def countPresentation (m : Message) (s : State) : State :=
  if m.condition = .unchanged then
    match s.cues.queue.find? fun c => decide (c.order = m.cue.order) with
    | some c =>
      if c.repeatCount = c.repeatsLeft then dropRecord c.order s
      else modRecord c.order (Cue.presented s.refTime s.params.interval) s
    | none => s
  else s

/-- The message in flight has ended: the strobe ends. -/
def clearMessage (s : State) : State := { s with cues := { s.cues with msg := none, strobe := false } }

/-- The link after a presentation: by the mode in force where that is OFF or TIMED (R143), to GAP for a message in mode
TIMED (R146), else to SPEAKING or GAP by the busy input (R147). -/
def linkAfterPresentation (m : Message) (s : State) : State :=
  if s.params.linkMode = .off then enterOff s
  else if s.params.linkMode = .timed ∨ m.mode = .timed then enterGap s
  else if s.cues.busyIn then { s with cues := { s.cues with link := .speaking } }
  else enterGap s

/-- The message in flight is presented (R137). -/
def present (m : Message) (s : State) : State :=
  linkAfterPresentation m (clearMessage (reportPresented m (countPresentation m s)))

/-- The abort is counted against an UNCHANGED record (R139): a first abort is noted, at a second the record leaves and
CUE_DROPPED is pended. Any other record is left alone (R138). -/
def countAbort (m : Message) (s : State) : State :=
  if m.condition = .unchanged then
    match s.cues.queue.find? fun c => decide (c.order = m.cue.order) with
    | some c =>
      if c.aborts = 0 then modRecord c.order (fun c => { c with aborts := 1 }) s
      else pend .cueDropped (dropRecord c.order s)
    | none => s
  else s

/-- The link after an abort: OFF if that is the mode in force (R143), else GAP (R139). -/
def linkAfterAbort (s : State) : State := if s.params.linkMode = .off then enterOff s else enterGap s

/-- The message in flight is aborted (R139). -/
def abort (m : Message) (s : State) : State :=
  linkAfterAbort (clearMessage (reportAborted m (countAbort m s)))

/-- The byte being sent is the last of its message. -/
def Message.lastByte (m : Message) : Bool := decide (m.bytes.length ≤ m.index + 1)

/-- The byte being sent completes: the next byte begins, or the message is presented (R137, R144). -/
def completeByte (m : Message) (s : State) : State :=
  if m.lastByte then present m s
  else beginByte { s with cues := { s.cues with msg := some { m with index := m.index + 1 } } }

/-- The handshake of a byte is over, as far as the announcer's pulse or the part's own goes; it then waits for busy to
be low unless it is the last byte (R144, R145). -/
def handshakeDone (m : Message) : Bool :=
  match m.mode with
  | .acknowledged => decide (m.ack = .done)
  | .busy => m.pulseOver
  | _ => false

/-- The byte completes if its handshake is over and, but for the last byte, busy is low (R144, R145). -/
def tryComplete (s : State) : State :=
  match s.cues.msg with
  | some m => if handshakeDone m && (m.lastByte || !s.cues.busyIn) then completeByte m s else s
  | none => s

/-! ## The inputs (R144, R147, R148) -/

/-- The levels the acknowledge input takes; none for a change that its present level rules out. -/
def ackLevel (e : AckEvent) (level : Bool) : Option Bool :=
  match e, level with
  | .rise, false => some true
  | .fall, true => some false
  | .riseAndFall, false => some false
  | _, _ => none

/-- The acknowledge input has a level. -/
def setAck (level : Bool) (s : State) : State := { s with cues := { s.cues with ackIn := level } }

/-- The busy input has a level. -/
def setBusy (level : Bool) (s : State) : State := { s with cues := { s.cues with busyIn := level } }

/-- The acknowledge phase after a change of the input: a pulse that began before the strobe is not counted (R144). -/
def ackPhase (e : AckEvent) (p : AckPhase) : AckPhase :=
  match e, p with
  | _, .done => .done
  | .rise, _ => .risen
  | .fall, .risen => .done
  | .fall, .none => .none
  | .riseAndFall, _ => .done

/-- A change of the acknowledge input seen by a message in mode ACKNOWLEDGED: the strobe ends when it rises (R144). -/
def seeAck (e : AckEvent) (s : State) : State :=
  match s.cues.msg with
  | some m =>
    if m.mode = .acknowledged then
      tryComplete { s with cues := { s.cues with
        msg := some { m with ack := ackPhase e m.ack }
        strobe := if e = .fall then s.cues.strobe else false } }
    else s
  | none => s

/-- The acknowledge input changes (R144); outside SENDING only its level is kept. -/
def ackEvent (e : AckEvent) (s : State) : State :=
  match ackLevel e s.cues.ackIn with
  | some level => seeAck e (setAck level s)
  | none => s

/-- The busy input falls (R144, R145, R147, R148). -/
def busyFall (s : State) : State :=
  let t := setBusy false s
  match t.cues.link with
  | .sending => tryComplete t
  | .speaking => enterGap t
  | .stalled => pend .cueLinkChange (enterGap t)
  | _ => t

/-- A change of an input's level. With the pin asserted it is kept and has no other effect (log entry 22). -/
def inputChange (can : Bool) (level f : State → State) (s : State) : Host.Outcome State Fault Refusal :=
  if s.resetPin && can then .next (level s) else occur can f s

/-! ## Timers of the link (R139, R145 to R148) -/

/-- A strobe pulse is running in a mode that times it itself (R145, R146). -/
def pulseRunning (s : State) : Bool :=
  match s.cues.msg with
  | some m => s.cues.strobe && (decide (m.mode = .busy) || decide (m.mode = .timed))
  | none => false

/-- The strobe pulse ends; in mode BUSY the byte may then complete (R145). -/
def pulseEnd (s : State) : State :=
  match s.cues.msg with
  | some m => tryComplete { s with cues := { s.cues with strobe := false, msg := some { m with pulseOver := true } } }
  | none => s

/-- A message in a mode that satisfies a test is in flight. -/
def sendingIn (test : LinkMode → Bool) (s : State) : Bool :=
  match s.cues.msg with
  | some m => test m.mode
  | none => false

/-- One timed spacing has passed since the strobe began (R146). -/
def spacingPassed (s : State) : State :=
  match s.cues.msg with
  | some m => completeByte m s
  | none => s

/-- The byte limit applies: modes ACKNOWLEDGED and BUSY (R139). -/
def limited (mode : LinkMode) : Bool := decide (mode = .acknowledged) || decide (mode = .busy)

/-- The byte limit expires (R139). -/
def byteLimitPassed (s : State) : State :=
  match s.cues.msg with
  | some m => abort m s
  | none => s

/-- The gap timer expires: READY (R147). -/
def gapPassed (s : State) : State := { s with cues := { s.cues with link := .ready, gapTimer := none } }

/-- The busy timer expires: STALLED, and CUE_LINK_CHANGE is pended (R148). -/
def stall (s : State) : State := pend .cueLinkChange { s with cues := { s.cues with link := .stalled, busyTimer := none } }

/-- A record waits whose not-before time may pass in the present second of the internal reference (log entry 10). -/
def notBeforeDue (order : BitVec 32) (s : State) : Bool :=
  s.cues.queue.any fun c => decide (c.order = order) &&
    match c.notBefore with
    | some n => !n.passed && decide (n.time ≤ s.refTime)
    | none => false

/-- A not-before time has passed (R134). -/
def passNotBefore (order : BitVec 32) (s : State) : State :=
  modRecord order (fun c => { c with notBefore := c.notBefore.map fun n => { n with passed := true } }) s

/-! ## The configured link mode (R143) -/

/-- The link state follows a new mode, which is in force already (R143). A message in flight keeps the link SENDING (R136), also
where the mode went to OFF during the message and now leaves it: "from OFF" is read of the link state (log entry 40). -/
def followMode (s : State) : State :=
  match s.params.linkMode, s.cues.msg, s.cues.link with
  | .off, none, _ => enterOff s
  | .off, some _, _ => s
  | _, _, .off => { s with cues := { s.cues with link := .ready } }
  | .timed, _, .speaking => enterGap s
  | .timed, _, .stalled => enterGap s
  | _, _, _ => s

/-! ## ISSUE CUE (R140) -/

/-- The kind a code of ISSUE CUE names (section 11.2). -/
def issueKind : Nat → Option CueKind
  | 6 => some .general
  | 7 => some .emergency
  | _ => none

/-- The cue an ISSUE CUE makes; none where a parameter is refused (R140, log entry 16). -/
def issuedCue (words : List Word) : Option Cue :=
  let w := commandWord words 1
  match issueKind (field w 0 8) with
  | some kind =>
    if 3 < field w 8 8 ∨ field w 16 16 = 0 ∨ 4095 < field w 16 16 then none
    else some (phraseCue kind (field w 16 16) (field w 8 8))
  | none => none

/-- The queue depth. -/
def depth (s : State) : Nat := s.cues.queue.length

/-- An ISSUE CUE completes by what became of its cue (R140). Of a cue that displaced nothing, word 4 is 0: section 11.2
says "255 none" there, R168 and R179 say 0 for a result not used (log entry 37). -/
def answerIssue (p : Placement) (s : State) : State :=
  match p with
  | .joined order => completeDone [order, resultOf (depth s)] s
  | .displaced order kind slot => completeDone [order, resultOf (depth s), resultOf kind.code, resultOf (slot.getD 255)] s
  | .dropped => complete .refused .queueFull [0, resultOf (depth s)] s
  | .replaced => completeDone [] s

/-- ISSUE CUE (R140). -/
def issueCueCommand (words : List Word) (s : State) : State :=
  match issuedCue words with
  | none => refuse .badParameter s
  | some c => answerIssue (handCue c s).2 (handCue c s).1

/-! ## CLEAR CUES (R142) -/

/-- The classes of the set (section 11.2). -/
def inClassSet (w : Word) (c : Cue) : Bool := flag w c.kind.cls.rank

/-- CLEAR CUES (R142). -/
def clearCuesCommand (words : List Word) (s : State) : State :=
  let test := inClassSet (commandWord words 1)
  let t := removeCues test s
  completeDone [resultOf (s.cues.queue.countP test), resultOf (depth t)] t

end Sys2Proof.Machine
end

