-- ==== Sys2Proof/Machine/Loader.lean ====
section
/-! DEFINITION. The requester of source LOAD: the configuration reading (R174 to R176), the table load (R41), and the
ends of both (R173, R177). -/

namespace Sys2Proof.Machine

/-! ## Requests (R11) -/

/-- An own read of source LOAD is requested (R11). -/
def requestLoad (addr : Nat) (s : State) : State :=
  { s with mem := { s.mem with reads := s.mem.reads ++ [{ addr := addr, source := .load }] } }

/-- The byte address of configuration word k (R174). -/
def configAddr (strap : BitVec 4) (k : Nat) : Nat := strapBase strap + 0x40 + 4 * k

/-- The byte address of what the load reads k-th for slot i: record words 0 to 4, then the commit word (R2, R41). -/
def tableAddr (strap : BitVec 4) (i k : Nat) : Nat :=
  strapBase strap + 0x1000 + 32 * i + (if k = 5 then 28 else 4 * k)

/-- The part state, and what the requester of source LOAD does. -/
def setPart (p : PartState) (r : Reading) (s : State) : State := { s with part := { s.part with state := p, reading := r } }

/-- The part enters STARTING and the configuration reading begins (R174). -/
def beginReading (s : State) : State := requestLoad (configAddr s.strap 0) (setPart .starting (.config []) s)

/-- The part enters HALTED (R173), and STARTED is pended (R176). -/
def halt (s : State) : State := pend .started (setPart .halted .idle s)

/-- The table load goes on with this word of this slot. -/
def readTable (i k : Nat) (s : State) : State := requestLoad (tableAddr s.strap i k) (setPart s.part.state (.table i k) s)

/-! ## The configuration judged and applied (R175, R176) -/

/-- The footnote records of the boards above P are discarded (R81, R129). -/
def discardBoards (s : State) : State := mapFootnotes (fun p n => if s.params.p < p then none else n) s

/-- The source is applied by the first configuration reading after hard reset that completes without halting (R48,
R176); a change of it pends CLOCK_CHANGE (R61). -/
def applySource (src : ClockSource) (s : State) : State :=
  if s.part.configured ∨ src = s.clock.source then s else changeSource src s

/-- The parameters in force are replaced. -/
def setParams (q : Params) (s : State) : State := { s with params := q }

/-- A configuration reading has completed without halting (R48, R176). -/
def noteConfigured (s : State) : State := { s with part := { s.part with configured := true } }

/-- The new values take effect (R176): roles, parameters, boards above P, link state, source, roll minute. -/
def applyConfig (words : List Word) (s : State) : State :=
  applyRoll (cfRoll.value words)
    (noteConfigured (applySource (sourceOf (rawSource words))
      (followMode (discardBoards (setParams (paramsOf words) (takeRoles (paramsOf words) s))))))

/-- CONFIG_CLAMPED (R175). -/
def setClamped (b : Bool) (s : State) : State := { s with part := { s.part with clamped := b } }

/-- The table load begins at slot 0 (R176, R41). -/
def beginLoad (s : State) : State := readTable 0 0 (pend .started (setPart .loading .idle s))

/-- The sixteen words are judged (R175): applied (R176), or the part enters HALTED (R177). -/
def judge (words : List Word) (s : State) : State :=
  let t := setClamped (configClamped words) s
  if configValid s.strap (paramsOf words) then beginLoad (applyConfig words t)
  else complete .failed .configInvalid [resultOf (bitOf (configClamped words))] (halt t)

/-- An answer of the configuration reading (R174). -/
def configAnswer (answers : List Word) (addr : Nat) (data : Word) (err : Bool) (s : State) : State :=
  if err then complete .failed .memoryFault [resultOf addr] (halt s)
  else if answers.length < 15 then
    requestLoad (configAddr s.strap (answers.length + 1)) (setPart s.part.state (.config (answers ++ [data])) s)
  else judge (answers ++ [data]) s

/-! ## The table load (R41 to R44, R176) -/

/-- The load ends (R176): LOAD_DONE, RUNNING, the full refresh (R114), and the RELOAD in execution completes (R177). -/
def loadDone (s : State) : State :=
  let t := fullRefresh (pend .loadDone (setPart .running .idle s))
  completeDone [resultOf (bitOf t.part.clamped), resultOf t.rowMap.length] t

/-- The load moves on from slot i (R41). -/
def nextSlot (i : Nat) (s : State) : State := if i + 1 < Config.slotCount then readTable (i + 1) 0 s else loadDone s

/-- A word of the staging copy of slot i is replaced (R23). -/
def stageWord (i k : Nat) (w : Word) (s : State) : State :=
  modSlot i (fun x => { x with staging := x.staging.set k w }) s

/-- An answer of the table load for word k of slot i (R41, R42). -/
def tableAnswer (i k : Nat) (data : Word) (err : Bool) (s : State) : State :=
  if err then nextSlot i (loadOutcome i true s)
  else if k < 5 then readTable i (k + 1) (stageWord i k data s)
  else nextSlot i (loadOutcome i false (stageWord i k data s))

/-- The answer of an own read of source LOAD reaches its requester. -/
def deliverLoad (addr : Nat) (data : Word) (err : Bool) (s : State) : State :=
  match s.part.reading with
  | .idle => s
  | .config answers => configAnswer answers addr data err s
  | .table i k => tableAnswer i k data err s

/-- Slot i has been loaded by the load in progress (R24). -/
def loadedSlot (s : State) (i : Nat) : Bool :=
  match s.part.reading with
  | .table j _ => decide (i < j)
  | _ => false

end Sys2Proof.Machine
end

