-- ==== Sys2Proof/Machine/MemoryPath.lean ====
section
/-! DEFINITION. The Memory Path (chapter 1): arbitration, processor accesses and their completions, own reads and
write-backs. -/

namespace Sys2Proof.Machine

/-! ## Arbitration (R16 to R18) -/

/-- The Memory Path is changed. -/
def setMem (m : MemPath) (s : State) : State := { s with mem := m }

/-- An own access waits, the port being idle (section 1.6): then no request and no write-back has started. -/
def MemPath.ownWaiting (m : MemPath) : Bool := !m.reads.isEmpty || !m.writeBacks.isEmpty

/-- The own access chosen by R16 is a read. -/
def MemPath.readsNext (m : MemPath) : Bool :=
  !m.reads.isEmpty && (m.writeBacks.isEmpty || decide (m.lastOwn = .writeBack))

/-- The own access chosen by R16 starts. A write-back carries the part's value of its word at this moment (R14). -/
def startOwn (s : State) : State :=
  if s.mem.readsNext then
    match s.mem.reads with
    | r :: _ => setMem { s.mem with port := .ownRead r, lastOwn := .read } s
    | [] => s
  else
    match s.mem.writeBacks with
    | e :: _ => setMem { s.mem with port := .writeBack e.offset (partWord s (classOf e.offset)), lastOwn := .writeBack } s
    | [] => s

/-- The waiting processor access starts. -/
def startProcessor (s : State) : State :=
  match s.mem.waiting with
  | some a => setMem { s.mem with port := .processor a, waiting := none } s
  | none => s

/-- The starvation counter has reached the limit with an own access waiting (R17). -/
def starved (s : State) : Bool := s.mem.ownWaiting && decide (s.params.starvation ≤ s.mem.counter)

/-- The processor access starts, counted if an own access waits (R17). -/
def startCounted (s : State) : State :=
  startProcessor (if s.mem.ownWaiting then setMem { s.mem with counter := s.mem.counter + 1 } s else s)

/-- The arbitration mode is replaced. -/
def setMode (m : MemMode) (s : State) : State := setMem { s.mem with mode := m } s

/-- The arbiter on an idle port: the table of R18. -/
def arbitrate (s : State) : State :=
  match s.mem.mode, s.mem.waiting.isSome, s.mem.ownWaiting with
  | .urgent, _, true => startOwn s
  | .urgent, _, false => startProcessor (setMode .normal s)
  | .normal, true, _ => if starved s then startOwn (setMode .urgent s) else startCounted s
  | .normal, false, true => startOwn s
  | .normal, false, false => s

/-! ## Processor accesses (R3 to R10) -/

/-- The processor access in flight on the memory-side port. -/
def inPort (s : State) : Option Access :=
  match s.mem.port with
  | .processor a => some a
  | _ => none

/-- The processor-side port is free: it completes one access before it takes the next (R5). -/
def portFree (s : State) : Bool := s.mem.waiting.isNone && (inPort s).isNone

/-- The class of the word an access names (R1, R2). -/
def Access.cls (strap : BitVec 4) (a : Access) : WordClass := addrClass strap a.byteAddr

/-- A completion is given on the processor-side port. -/
def answer (x : Answer) (s : State) : State := setMem { s.mem with answer := some x } s

/-- The access in flight completes, and the memory is free. -/
def finishAccess (x : Answer) (s : State) : State := setMem { s.mem with port := .idle, answer := some x } s

/-- A write to a part-owned word is dropped and completed at once, without error; PROTECTED_WRITE is pended (R7). -/
def dropWrite (s : State) : State := pend .protectedWrite (answer (.writeDone false) s)

/-- A write of a part-owned word (R7). -/
def isProtected (strap : BitVec 4) (a : Access) : Bool := a.write && (a.cls strap).partOwned

/-- A processor access arrives while the port is idle and is started at once, unless it must wait: in URGENT mode for
the own accesses waiting, in NORMAL mode at the starvation limit (R17, R18). -/
def startArrived (s : State) : State :=
  match s.mem.mode with
  | .normal => if starved s then s else startCounted s
  | .urgent => if s.mem.ownWaiting then s else startProcessor (setMode .normal s)

/-- A processor access arrives (R18), its address compared with the window (R1). -/
def arrive (a : Access) (s : State) : State :=
  if isProtected s.strap a then dropWrite s
  else
    let t := setMem { s.mem with waiting := some a, answer := none } s
    if s.mem.port = .idle then startArrived t else t

/-- The access in flight satisfies a test of its direction, class and byte enables. -/
def inFlightIs (test : Access → WordClass → Bool) (s : State) : Bool :=
  match inPort s with
  | some a => test a (a.cls s.strap)
  | none => false

/-- A write that is forwarded and, as far as its owner goes, no more than that: a plain word, a word outside the window,
a configuration word other than the event mask, or a trigger word with no byte enable set (R3, R4, R6). -/
def isPassThrough (a : Access) (c : WordClass) : Bool :=
  a.write &&
    match c with
    | .plain => true
    | .config k => decide (k ≠ maskWordIndex)
    | .trigger | .commit _ => decide (a.lanes = 0)
    | _ => false

/-- A write to a captured word that is no trigger (R4). -/
def isCaptured (a : Access) (c : WordClass) : Bool :=
  a.write &&
    match c with
    | .record _ _ | .command _ => true
    | _ => false

/-- A write of the event-mask word. -/
def isMaskWrite (a : Access) (c : WordClass) : Bool := a.write && decide (c = .config maskWordIndex)

/-- A write of a commit word with a byte enable set (R5). -/
def isCommit (a : Access) (c : WordClass) : Bool :=
  a.write && decide (a.lanes ≠ 0) &&
    match c with
    | .commit _ => true
    | _ => false

/-- A write of the trigger word with a byte enable set (R5, R166). -/
def isTrigger (a : Access) (c : WordClass) : Bool := a.write && decide (a.lanes ≠ 0) && decide (c = .trigger)

/-- A read whose substituted data has no effect on the part (R8, R9). -/
def isRead (a : Access) (c : WordClass) : Bool := !a.write && decide (c ≠ .event) && decide (c ≠ .fault)

/-- A read of one word. -/
def isReadOf (w : WordClass) (a : Access) (c : WordClass) : Bool := !a.write && decide (c = w)

/-- A word of a captured copy merges the lanes of a write (R4). -/
def mergeWord (words : List Word) (k : Nat) (a : Access) : List Word :=
  words.set k (mergeLanes (words.getD k 0) a.data a.lanes)

/-- The capture a write makes in the copies of its owner (R4, R6). -/
def capture (a : Access) (c : WordClass) (s : State) : State :=
  match c with
  | .command k => { s with cmd := { s.cmd with staging := mergeWord s.cmd.staging k a } }
  | .config k => { s with cmd := { s.cmd with config := mergeWord s.cmd.config k a } }
  | .record i k => modSlot i (fun x => { x with staging := mergeWord x.staging k a }) s
  | .commit i => modSlot i (fun x => { x with staging := mergeWord x.staging 5 a }) s
  | _ => s

/-- The processor write in flight completes with the memory's error indication, and its capture is made (R3, R4). -/
def finishWrite (err : Bool) (s : State) : State :=
  match inPort s with
  | some a => finishAccess (.writeDone err) (capture a (a.cls s.strap) s)
  | none => s

/-- The data a processor read returns: the memory's, or the part's value of a part-owned word (R8, R9). -/
def readData (s : State) (c : WordClass) (data : Word) : Word := if c.partOwned then partWord s c else data

/-- The processor read in flight completes (R8, R9). -/
def finishRead (data : Word) (err : Bool) (s : State) : State :=
  match inPort s with
  | some a => finishAccess (.readDone (readData s (a.cls s.strap) data) err) s
  | none => s

/-- A read of the event word completes: its value is returned and acknowledged (R10, R172). -/
def finishEventRead (err : Bool) (s : State) : State :=
  let t := finishAccess (.readDone s.att.word err) s
  { t with att := s.att.acknowledge }

/-- A read of the fault word completes: its value is returned and the word is clear (R10, R20). -/
def finishFaultRead (err : Bool) (s : State) : State :=
  let t := finishAccess (.readDone (faultWord s.mem.fault) err) s
  setMem { t.mem with fault := none } t

/-- A write of the event-mask word completes: it is merged into the mask (R6, R171). -/
def finishMaskWrite (err : Bool) (s : State) : State :=
  match inPort s with
  | some a => let t := finishWrite err s; { t with att := s.att.writeMask a.data a.lanes }
  | none => s

/-- A commit handed to the Slot Table (the table of R24). -/
def handCommit (i : Nat) (s : State) : State :=
  match s.part.state with
  | .running => considerCommit i false s
  | .loading => if loadedSlot s i then considerCommit i true s else s
  | .starting | .halted => s

/-- A write of a commit word completes: captured, then handed over (R5, R24). -/
def finishCommit (err : Bool) (s : State) : State :=
  match inPort s with
  | some a =>
    match a.cls s.strap with
    | .commit i => handCommit i (finishWrite err s)
    | _ => s
  | none => s

/-! ## Own accesses (R12, R14, R19) -/

/-- An own-access fault is recorded (R19). -/
def recordFault (addr : Nat) (write : Bool) (source : FaultSource) (s : State) : State :=
  pend .memoryFault (setMem { s.mem with
    fault := match s.mem.fault with
      | none => some { addr := addr, write := write, source := source, more := false }
      | some f => some { f with more := true } } s)

/-- The own read in flight. -/
def readInFlight (s : State) : Option ReadReq :=
  match s.mem.port with
  | .ownRead r => some r
  | _ => none

/-- The offset of the write-back in flight. -/
def writeBackInFlight (s : State) : Option Nat :=
  match s.mem.port with
  | .writeBack o _ => some o
  | _ => none

/-- The fault source of a requester. -/
def ReadSource.fault : ReadSource → FaultSource
  | .load => .load
  | .fetch => .fetch

/-- The answer of an own read is handed to its requester (R12). -/
def deliver (r : ReadReq) (data : Word) (err : Bool) (s : State) : State :=
  match r.source with
  | .load => deliverLoad r.addr data err s
  | .fetch => deliverFetch r.addr data err s

/-- The own read in flight completes (R12): its request leaves the list, the counter is cleared (R17), a fault is
recorded (R19), and the requester is answered. -/
def finishOwnRead (data : Word) (err : Bool) (s : State) : State :=
  match readInFlight s with
  | some r =>
    let t := setMem { s.mem with port := .idle, reads := s.mem.reads.tail, counter := 0 } s
    deliver r data err (if err then recordFault r.addr false r.source.fault t else t)
  | none => s

/-- The write-back set when the write of its head completes (R14). -/
def afterWriteBack (set : List WbEntry) : List WbEntry :=
  match set with
  | [] => []
  | e :: rest => if e.changed then rest ++ [{ offset := e.offset, changed := false }] else rest

/-- The write-back in flight completes (R14, R17, R19). -/
def finishWriteBack (err : Bool) (s : State) : State :=
  match writeBackInFlight s with
  | some o =>
    let t := setMem { s.mem with port := .idle, writeBacks := afterWriteBack s.mem.writeBacks, counter := 0 } s
    if err then recordFault (strapBase s.strap + o) true .writeback t else t
  | none => s

end Sys2Proof.Machine
end

