-- ==== Sys2Proof/Machine/Commands.lean ====
section
/-! DEFINITION. Taking a command (R166, R167), and the commands that the Command Area Unit answers itself: RELOAD (R177)
and QUERY (R169). -/

namespace Sys2Proof.Machine

/-- The command codes (section 11.2). -/
def codeSetClock : Nat := 0x01
/-- SET SOURCE. -/
def codeSetSource : Nat := 0x02
/-- SET WALL MODE. -/
def codeSetWallMode : Nat := 0x03
/-- STEP FRAME. -/
def codeStepFrame : Nat := 0x04
/-- POST NOTICE. -/
def codePostNotice : Nat := 0x05
/-- WITHDRAW NOTICE. -/
def codeWithdrawNotice : Nat := 0x06
/-- ISSUE CUE. -/
def codeIssueCue : Nat := 0x07
/-- CLEAR CUES. -/
def codeClearCues : Nat := 0x08
/-- PROBE DROPS. -/
def codeProbeDrops : Nat := 0x09
/-- RELOAD. -/
def codeReload : Nat := 0x0A
/-- QUERY. -/
def codeQuery : Nat := 0x0B

/-- Codes 0x00 and 0x0C to 0xFF name no command (section 11.2). -/
def unknownCode (code : Nat) : Bool := decide (code = 0) || decide (codeQuery < code)

/-- A trigger write is in flight, and the staged command code is this one. -/
def triggers (code : Nat) (s : State) : Bool :=
  inFlightIs isTrigger s && decide (commandCode s.cmd.staging = code)

/-- A trigger write is in flight, and the staged command code names no command. -/
def triggersUnknown (s : State) : Bool := inFlightIs isTrigger s && unknownCode (commandCode s.cmd.staging)

/-- The staging copy becomes the command in execution; COMMAND_TAKEN is pended if ACK_WANTED is set (R166). -/
def takeCommand (s : State) : State :=
  pendIf (ackWanted s.cmd.staging) .commandTaken { s with cmd := { s.cmd with exec := some s.cmd.staging } }

/-- A trigger write completes and is handed to the Command Area Unit (R5, R166, R167): not taken while a command is in
execution, else taken, tested against the part state, and handed to its block with its words. -/
def handTrigger (allowed : PartState → Bool) (act : List Word → State → State) (err : Bool) (s : State) : State :=
  let t := finishWrite err s
  if t.cmd.exec.isSome then pend .mailboxOverrun t
  else if allowed t.part.state then act t.cmd.staging (takeCommand t)
  else refuse .wrongState (takeCommand t)

/-- Taken in RUNNING only (the table of R167). -/
def whenRunning (p : PartState) : Bool := decide (p = .running)

/-- Taken in RUNNING and HALTED (R167). -/
def whenReloadable (p : PartState) : Bool := decide (p = .running) || decide (p = .halted)

/-- Taken in every part state (R167). -/
def whenever (_ : PartState) : Bool := true

/-- The 32 flags of the OFFLINE set in result word 1 + k (R169). -/
def offlineWord (s : State) (k : Nat) : Word :=
  packWord ((List.range 32).map fun b => (bitOf (!(dropAt s (32 * k + b)).online), b))

/-- The results of QUERY (R169). -/
def queryResults (s : State) : List Word :=
  (List.range 4).map (offlineWord s) ++
    [packWord [(s.rowMap.length, 0), (s.display.marks.length, 16)],
      packWord ((s.cues.queue.length, 0) :: (List.range 8).map fun i => ((entryAt s i).state.code, 16 + 2 * i))]

/-- QUERY (R169). -/
def queryCommand (s : State) : State := completeDone (queryResults s) s

end Sys2Proof.Machine
end

