-- ==== Sys2Proof/Machine/BusEvents.lean ====
section
/-! DEFINITION. The meanings of the bus and reset rows: processor accesses, own accesses, commits, hard reset. -/

namespace Sys2Proof.Machine

/-- PROCESSOR_ACCESS_ARRIVES (R1, R7, R18): occurs when the processor-side port is free. -/
def execProcessorAccessArrives (addr : BitVec 30) (write : Bool) (data : Word) (lanes : BitVec 4) (s : State) :
    Host.Outcome State Fault Refusal :=
  occur (portFree s) (arrive { addr := addr, write := write, data := data, lanes := lanes }) s

/-- ARBITER_START (R16, R18): the arbiter examines the waiting accesses of a free memory. -/
def execArbiterStart (s : State) : Host.Outcome State Fault Refusal := occur (decide (s.mem.port = .idle)) arbitrate s

/-- The arbiter is about to start a processor access in NORMAL mode and finds the counter at the limit (R17). -/
def atLimit (s : State) : Bool :=
  decide (s.mem.port = .idle) && decide (s.mem.mode = .normal) && s.mem.waiting.isSome && starved s

/-- STARVATION_LIMIT_REACHED (R16, R17): URGENT mode, and an own access starts. -/
def execStarvationLimitReached (s : State) : Host.Outcome State Fault Refusal :=
  occur (atLimit s) (fun s => startOwn (setMode .urgent s)) s

/-- PASS_THROUGH_WRITE (R3, R6). -/
def execPassThroughWrite (err : Bool) (s : State) : Host.Outcome State Fault Refusal :=
  occur (inFlightIs isPassThrough s) (finishWrite err) s

/-- CAPTURED_WRITE (R4, R23, R165). -/
def execCapturedWrite (err : Bool) (s : State) : Host.Outcome State Fault Refusal :=
  occur (inFlightIs isCaptured s) (fun s => finishWrite err s) s

/-- PROCESSOR_READ (R8, R9). -/
def execProcessorRead (data : Word) (err : Bool) (s : State) : Host.Outcome State Fault Refusal :=
  occur (inFlightIs isRead s) (finishRead data err) s

/-- PROTECTED_WRITE (R7): a write of a part-owned word arrives, occurs when the processor-side port is free. -/
def execProtectedWrite (addr : BitVec 30) (data : Word) (lanes : BitVec 4) (s : State) :
    Host.Outcome State Fault Refusal :=
  occur (portFree s && isProtected s.strap { addr := addr, write := true, data := data, lanes := lanes }) dropWrite s

/-- EVENT_WORD_READ (R10, R172). -/
def execEventWordRead (err : Bool) (s : State) : Host.Outcome State Fault Refusal :=
  occur (inFlightIs (isReadOf .event) s) (finishEventRead err) s

/-- FAULT_WORD_READ (R10, R20). -/
def execFaultWordRead (err : Bool) (s : State) : Host.Outcome State Fault Refusal :=
  occur (inFlightIs (isReadOf .fault) s) (finishFaultRead err) s

/-- EVENT_MASK_WRITE (R6, R171). -/
def execEventMaskWrite (err : Bool) (s : State) : Host.Outcome State Fault Refusal :=
  occur (inFlightIs isMaskWrite s) (finishMaskWrite err) s

/-- OWN_READ_COMPLETE (R12, R17, R19). -/
def execOwnReadComplete (data : Word) (err : Bool) (s : State) : Host.Outcome State Fault Refusal :=
  occur (readInFlight s).isSome (finishOwnRead data err) s

/-- WRITE_BACK_COMPLETE (R14, R17, R19). -/
def execWriteBackComplete (err : Bool) (s : State) : Host.Outcome State Fault Refusal :=
  occur (writeBackInFlight s).isSome (finishWriteBack err) s

/-- COMMIT (R5, R24 to R31). -/
def execCommit (err : Bool) (s : State) : Host.Outcome State Fault Refusal :=
  occur (inFlightIs isCommit s) (finishCommit err) s

/-- HARD_RESET (R1, R15, R21): the pin is asserted, the straps are sampled, every unit takes its reset values. The
input levels of the cue link, the count of free choices and the queue of commands stay (log entries 22 and 33). -/
def execHardReset (straps : BitVec 4) (s : State) : Host.Outcome State Fault Refusal :=
  .next (State.afterReset straps s.cues.ackIn s.cues.busyIn s.freeCount s.pending)

/-- The probe timer's period in seconds (R111). -/
def probePeriod : Nat := 30

/-- The pin is released (R173): the probe timer starts (R114) and the configuration reading begins (R174). -/
def release (s : State) : State :=
  beginReading { s with resetPin := false, display := { s.display with probeTimer := some probePeriod } }

/-- HARD_RESET_RELEASE (R173): occurs while the pin is asserted. -/
def execHardResetRelease (s : State) : Host.Outcome State Fault Refusal :=
  if s.resetPin then .next (settle s (release s)) else .next s

end Sys2Proof.Machine
end

