-- ==== Sys2Proof/Machine/TimeEvents.lean ====
section
/-! DEFINITION. The meanings of the time rows. A row that names one effect of a tick is that tick, where the tick has the
effect (log entry 8). -/

namespace Sys2Proof.Machine

/-- INTERNAL_REFERENCE_SECOND (R48 to R53). -/
def execInternalReferenceSecond (s : State) : Host.Outcome State Fault Refusal := occur true (timeEvent .reference) s

/-- MASTER_PULSE (R49 to R53). -/
def execMasterPulse (s : State) : Host.Outcome State Fault Refusal := occur true (timeEvent .pulse) s

/-- LOSS_TIMER_EXPIRY (R49, R50): occurs while the loss timer runs. -/
def execLossTimerExpiry (s : State) : Host.Outcome State Fault Refusal := occur s.clock.loss.isSome loseLock s

/-- The tick runs out the footnote of a board (R81). -/
def footnoteDue (board : Nat) (cause : TickCause) (s : State) : Bool :=
  match pendingAdvance cause s, footnoteAt s board with
  | some a, some n => decide (1 ≤ board) && decide (n.left ≤ a.seconds)
  | _, _ => false

/-- FOOTNOTE_EXPIRY (R81). -/
def execFootnoteExpiry (board : Nat) (cause : TickCause) (s : State) : Host.Outcome State Fault Refusal :=
  occur (footnoteDue board cause s) (timeEvent cause) s

/-- The tick runs out the highlight of a slot (R82). -/
def highlightDue (slot : Nat) (cause : TickCause) (s : State) : Bool :=
  match pendingAdvance cause s, (slotAt s slot).highlight with
  | some a, some left => decide (left ≤ a.seconds)
  | _, _ => false

/-- HIGHLIGHT_EXPIRY (R82). -/
def execHighlightExpiry (slot : Nat) (cause : TickCause) (s : State) : Host.Outcome State Fault Refusal :=
  occur (highlightDue slot cause s) (timeEvent cause) s

/-- The tick runs out the lifetime of a notice (R162). -/
def noticeDue (entry : Nat) (cause : TickCause) (s : State) : Bool :=
  match pendingAdvance cause s with
  | some a =>
    decide ((entryAt s entry).state = .active) && decide ((entryAt s entry).minutes ≠ 0) && a.minuteEvent &&
      decide ((entryAt s entry).minutes ≤ a.minutes)
  | none => false

/-- NOTICE_EXPIRY (R162). -/
def execNoticeExpiry (entry : Nat) (cause : TickCause) (s : State) : Host.Outcome State Fault Refusal :=
  occur (noticeDue entry cause s) (timeEvent cause) s

/-- The tick brings the slew remainder to 0 (R54). -/
def slewEnds (cause : TickCause) (s : State) : Bool :=
  match s.clock.event cause with
  | some (c, _) => decide (s.clock.slew ≠ 0) && decide (c.slew = 0)
  | none => false

/-- SLEW_COMPLETE (R54). -/
def execSlewComplete (cause : TickCause) (s : State) : Host.Outcome State Fault Refusal :=
  occur (slewEnds cause s) (timeEvent cause) s

end Sys2Proof.Machine
end

