-- ==== Sys2Proof/Machine/AreaEvents.lean ====
section
/-! DEFINITION. The meanings of the command area rows. Each occurs when a trigger write is in flight on the memory-side
port and the staged command code is the row's (log entry 1). -/

namespace Sys2Proof.Machine

/-- SET CLOCK (R55 to R57). -/
def execSetClock (err : Bool) (s : State) : Host.Outcome State Fault Refusal :=
  occur (triggers codeSetClock s) (handTrigger whenRunning setClockCommand err) s

/-- SET SOURCE (R58). -/
def execSetSource (err : Bool) (s : State) : Host.Outcome State Fault Refusal :=
  occur (triggers codeSetSource s) (handTrigger whenRunning setSourceCommand err) s

/-- SET WALL MODE (R99, R104). -/
def execSetWallMode (err : Bool) (s : State) : Host.Outcome State Fault Refusal :=
  occur (triggers codeSetWallMode s) (handTrigger whenRunning setWallModeCommand err) s

/-- STEP FRAME (R105). -/
def execStepFrame (err : Bool) (s : State) : Host.Outcome State Fault Refusal :=
  occur (triggers codeStepFrame s) (handTrigger whenRunning (fun _ => stepFrameCommand) err) s

/-- POST NOTICE (R153 to R156). -/
def execPostNotice (err : Bool) (s : State) : Host.Outcome State Fault Refusal :=
  occur (triggers codePostNotice s) (handTrigger whenRunning postNotice err) s

/-- WITHDRAW NOTICE (R161). -/
def execWithdrawNotice (err : Bool) (s : State) : Host.Outcome State Fault Refusal :=
  occur (triggers codeWithdrawNotice s) (handTrigger whenRunning withdrawNotice err) s

/-- ISSUE CUE (R140). -/
def execIssueCue (err : Bool) (s : State) : Host.Outcome State Fault Refusal :=
  occur (triggers codeIssueCue s) (handTrigger whenRunning issueCueCommand err) s

/-- CLEAR CUES (R142). -/
def execClearCues (err : Bool) (s : State) : Host.Outcome State Fault Refusal :=
  occur (triggers codeClearCues s) (handTrigger whenRunning clearCuesCommand err) s

/-- PROBE DROPS (R112). -/
def execProbeDrops (err : Bool) (s : State) : Host.Outcome State Fault Refusal :=
  occur (triggers codeProbeDrops s) (handTrigger whenRunning (fun _ => probeDropsCommand) err) s

/-- RELOAD (R177): it stays in execution while the configuration reading and the load run. -/
def execReload (err : Bool) (s : State) : Host.Outcome State Fault Refusal :=
  occur (triggers codeReload s) (handTrigger whenReloadable (fun _ => beginReading) err) s

/-- QUERY (R169). -/
def execQuery (err : Bool) (s : State) : Host.Outcome State Fault Refusal :=
  occur (triggers codeQuery s) (handTrigger whenever (fun _ => queryCommand) err) s

/-- UNKNOWN_COMMAND (R167): refused in every part state. -/
def execUnknownCommand (err : Bool) (s : State) : Host.Outcome State Fault Refusal :=
  occur (triggersUnknown s) (handTrigger whenever (fun _ => refuse .unknownCommand) err) s

end Sys2Proof.Machine
end

