-- ==== Sys2Proof/Machine/LinkEvents.lean ====
section
/-! DEFINITION. The meanings of the display link, cue link and ticker rows. -/

namespace Sys2Proof.Machine

/-! ## Display link -/

/-- FRAME_SEND (R100, R106): occurs on an idle link with something to send. -/
def execFrameSend (s : State) : Host.Outcome State Fault Refusal := occur (canSend s) sendFrame s

/-- The frame in flight is being transmitted. -/
def transmitting (s : State) : Bool := (s.display.frame.map fun f => !f.window).getD false

/-- FRAME_TRANSMITTED (R107): occurs while a frame is being transmitted. -/
def execFrameTransmitted (s : State) : Host.Outcome State Fault Refusal := occur (transmitting s) openWindow s

/-- REPLY (R107 to R110, R113): bytes that are no valid reply, or come outside the reply window, are ignored. -/
def execReply (bytes : List Byte) (s : State) : Host.Outcome State Fault Refusal :=
  occur (replyTo s bytes).isSome (receiveReply bytes) s

/-- REPLY_WINDOW_CLOSE (R107): occurs while the reply window is open. -/
def execReplyWindowClose (s : State) : Host.Outcome State Fault Refusal :=
  occur (windowIsOpen s) (finishExchange .noReply) s

/-- DROP_OFFLINE (R110): the end of an exchange, by a NAK or by the window's close, that is its drop's third failure
(log entry 8). -/
def execDropOffline (cause : FailCause) (s : State) : Host.Outcome State Fault Refusal :=
  occur (thirdFailure s) (finishExchange (failOutcome cause)) s

/-- PROBE_TIMER_EXPIRY (R111): occurs while the probe timer runs, and it runs on. -/
def execProbeTimerExpiry (s : State) : Host.Outcome State Fault Refusal :=
  occur s.display.probeTimer.isSome probeTick s

/-! ## Cue link -/

/-- MESSAGE_BEGINS (R134 to R136): occurs when a cue may begin. -/
def execMessageBegins (s : State) : Host.Outcome State Fault Refusal := occur (cueToBegin s).isSome beginNext s

/-- The level the acknowledge input has after a change; its present level where the change cannot be. -/
def newAck (e : AckEvent) (s : State) : Bool := (ackLevel e s.cues.ackIn).getD s.cues.ackIn

/-- ACKNOWLEDGE_INPUT (R144): occurs where the input's present level allows the change. -/
def execAcknowledgeInput (e : AckEvent) (s : State) : Host.Outcome State Fault Refusal :=
  inputChange (ackLevel e s.cues.ackIn).isSome (setAck (newAck e s)) (ackEvent e) s

/-- STROBE_PULSE_END (R145, R146): occurs while a strobe pulse of mode BUSY or TIMED runs. -/
def execStrobePulseEnd (s : State) : Host.Outcome State Fault Refusal := occur (pulseRunning s) pulseEnd s

/-- TIMED_SPACING_EXPIRY (R146): occurs while a message in mode TIMED is in flight. -/
def execTimedSpacingExpiry (s : State) : Host.Outcome State Fault Refusal :=
  occur (sendingIn (fun m => decide (m = .timed)) s) spacingPassed s

/-- BUSY_FALLS (R144, R145, R147, R148): occurs while the input is high. -/
def execBusyFalls (s : State) : Host.Outcome State Fault Refusal := inputChange s.cues.busyIn (setBusy false) busyFall s

/-- BUSY_RISES (R147, R148): occurs while the input is low. -/
def execBusyRises (s : State) : Host.Outcome State Fault Refusal :=
  inputChange (!s.cues.busyIn) (setBusy true) (setBusy true) s

/-- BYTE_LIMIT_EXPIRY (R139): occurs while a message in mode ACKNOWLEDGED or BUSY is in flight. -/
def execByteLimitExpiry (s : State) : Host.Outcome State Fault Refusal :=
  occur (sendingIn limited s) byteLimitPassed s

/-- GAP_TIMER_EXPIRY (R147): occurs while the gap timer runs. -/
def execGapTimerExpiry (s : State) : Host.Outcome State Fault Refusal := occur s.cues.gapTimer.isSome gapPassed s

/-- BUSY_TIMER_EXPIRY (R148): occurs while the busy timer runs. -/
def execBusyTimerExpiry (s : State) : Host.Outcome State Fault Refusal := occur s.cues.busyTimer.isSome stall s

/-- NOT_BEFORE_PASSES (R134): occurs in the second of the internal reference in which the time lies. -/
def execNotBeforePasses (order : BitVec 32) (s : State) : Host.Outcome State Fault Refusal :=
  occur (notBeforeDue order s) (passNotBefore order) s

/-! ## Ticker -/

/-- TICKER_DWELL_EXPIRY (R163): occurs while the dwell timer runs. -/
def execTickerDwellExpiry (s : State) : Host.Outcome State Fault Refusal :=
  occur s.notices.dwellTimer.isSome rotate s

end Sys2Proof.Machine
end

