-- ==== Sys2Proof/Machine/Dispatch.lean ====
section
/-! DEFINITION. The meaning of every command: one arm, one direct call. -/

namespace Sys2Proof.Machine

/-- The effect of a command on everything but the queue. -/
def exec (i : Instr) (s : State) : Host.Outcome State Fault Refusal :=
  match i with
  | .processorAccessArrives addr write data lanes => Sys2Proof.Machine.execProcessorAccessArrives addr write data lanes s
  | .arbiterStart => Sys2Proof.Machine.execArbiterStart s
  | .starvationLimitReached => Sys2Proof.Machine.execStarvationLimitReached s
  | .passThroughWrite err => Sys2Proof.Machine.execPassThroughWrite err s
  | .capturedWrite err => Sys2Proof.Machine.execCapturedWrite err s
  | .processorRead data err => Sys2Proof.Machine.execProcessorRead data err s
  | .protectedWrite addr data lanes => Sys2Proof.Machine.execProtectedWrite addr data lanes s
  | .eventWordRead err => Sys2Proof.Machine.execEventWordRead err s
  | .faultWordRead err => Sys2Proof.Machine.execFaultWordRead err s
  | .eventMaskWrite err => Sys2Proof.Machine.execEventMaskWrite err s
  | .ownReadComplete data err => Sys2Proof.Machine.execOwnReadComplete data err s
  | .writeBackComplete err => Sys2Proof.Machine.execWriteBackComplete err s
  | .hardReset straps => Sys2Proof.Machine.execHardReset straps s
  | .hardResetRelease => Sys2Proof.Machine.execHardResetRelease s
  | .commit err => Sys2Proof.Machine.execCommit err s
  | .internalReferenceSecond => Sys2Proof.Machine.execInternalReferenceSecond s
  | .masterPulse => Sys2Proof.Machine.execMasterPulse s
  | .lossTimerExpiry => Sys2Proof.Machine.execLossTimerExpiry s
  | .footnoteExpiry board cause => Sys2Proof.Machine.execFootnoteExpiry board cause s
  | .highlightExpiry slot cause => Sys2Proof.Machine.execHighlightExpiry slot cause s
  | .noticeExpiry entry cause => Sys2Proof.Machine.execNoticeExpiry entry cause s
  | .slewComplete cause => Sys2Proof.Machine.execSlewComplete cause s
  | .setClock err => Sys2Proof.Machine.execSetClock err s
  | .setSource err => Sys2Proof.Machine.execSetSource err s
  | .setWallMode err => Sys2Proof.Machine.execSetWallMode err s
  | .stepFrame err => Sys2Proof.Machine.execStepFrame err s
  | .postNotice err => Sys2Proof.Machine.execPostNotice err s
  | .withdrawNotice err => Sys2Proof.Machine.execWithdrawNotice err s
  | .issueCue err => Sys2Proof.Machine.execIssueCue err s
  | .clearCues err => Sys2Proof.Machine.execClearCues err s
  | .probeDrops err => Sys2Proof.Machine.execProbeDrops err s
  | .reload err => Sys2Proof.Machine.execReload err s
  | .query err => Sys2Proof.Machine.execQuery err s
  | .unknownCommand err => Sys2Proof.Machine.execUnknownCommand err s
  | .frameSend => Sys2Proof.Machine.execFrameSend s
  | .frameTransmitted => Sys2Proof.Machine.execFrameTransmitted s
  | .reply bytes => Sys2Proof.Machine.execReply bytes s
  | .replyWindowClose => Sys2Proof.Machine.execReplyWindowClose s
  | .dropOffline cause => Sys2Proof.Machine.execDropOffline cause s
  | .probeTimerExpiry => Sys2Proof.Machine.execProbeTimerExpiry s
  | .messageBegins => Sys2Proof.Machine.execMessageBegins s
  | .acknowledgeInput e => Sys2Proof.Machine.execAcknowledgeInput e s
  | .strobePulseEnd => Sys2Proof.Machine.execStrobePulseEnd s
  | .timedSpacingExpiry => Sys2Proof.Machine.execTimedSpacingExpiry s
  | .busyFalls => Sys2Proof.Machine.execBusyFalls s
  | .busyRises => Sys2Proof.Machine.execBusyRises s
  | .byteLimitExpiry => Sys2Proof.Machine.execByteLimitExpiry s
  | .gapTimerExpiry => Sys2Proof.Machine.execGapTimerExpiry s
  | .busyTimerExpiry => Sys2Proof.Machine.execBusyTimerExpiry s
  | .notBeforePasses order => Sys2Proof.Machine.execNotBeforePasses order s
  | .tickerDwellExpiry => Sys2Proof.Machine.execTickerDwellExpiry s

end Sys2Proof.Machine
end

