-- ==== Sys2Proof/Safety.lean ====
section
/-! DEFINITION. What a sound state is, and the terms the statements are written in. Each invariant is one that the spec
states for the part at all times. -/

namespace Sys2Proof.Machine

/-! ## Invariants -/

/-- A request flag is set only for a class that is pending and not masked (R170 to R172). -/
def AttentionSound (s : State) : Prop := s.att.request &&& ~~~(s.att.pending &&& s.att.mask) = 0

/-- The Time Base holds values of their ranges (R46, R47, R54), a RUNNING clock has source INTERNAL and a LOCKED or
FREERUN clock a master source (R48), and the loss timer runs exactly while the clock is LOCKED (R49, R50). -/
def ClockSound (s : State) : Prop :=
  s.clock.t < 86400 ∧ s.clock.roll < 1440 ∧ -120 ≤ s.clock.slew ∧ s.clock.slew ≤ 120 ∧
    (s.clock.state = .running → s.clock.source = .internal) ∧
    (s.clock.state = .locked ∨ s.clock.state = .freerun → s.clock.source ≠ .internal) ∧
    (s.clock.loss.isSome = true ↔ s.clock.state = .locked)

/-- A number lies in a..b. -/
def Within (a x b : Nat) : Prop := a ≤ x ∧ x ≤ b

/-- Every parameter lies in the range of R175. -/
def ParamsInRange (q : Params) : Prop :=
  Within 8 q.w 48 ∧ Within 1 q.p 32 ∧ q.firstWall ≤ 127 ∧ q.clockDrop ≤ 127 ∧ q.tickerDrop ≤ 127 ∧ q.boardBase ≤ 127 ∧
    q.lead ≤ 30 ∧ q.window ≤ 30 ∧ Within 30 q.dwell 600 ∧ Within 1 q.hold 60 ∧ Within 30 q.changeHold 1800 ∧
    Within 1 q.horizon 120 ∧ Within 1 q.threshold 60 ∧ Within 1 q.step 60 ∧ Within 4 q.starvation 255 ∧
    Within 1 q.memLimit 1024 ∧ q.gap ≤ 30 ∧ Within 1 q.byteLimit 255 ∧ Within 1 q.spacing 255 ∧
    Within 10 q.busyLimit 600 ∧ q.repeats ≤ 3 ∧ Within 10 q.interval 300

/-- The layout of a configuration is valid for a strap value: the role addresses lie in 0..127 and are distinct, and the
memory limit is not below the end of the managed region (R94, R175). -/
def LayoutValid (strap : BitVec 4) (q : Params) : Prop :=
  q.firstWall + q.w - 1 ≤ 127 ∧ q.boardBase + q.p - 1 ≤ 127 ∧ (roleAddresses q).Nodup ∧
    strapBase strap + 0x4000 ≤ q.memLimit * 0x10000

/-- The parameters in force lie in their ranges and make a valid layout (R94, R175, R176). -/
def ParamsSound (s : State) : Prop := ParamsInRange s.params ∧ LayoutValid s.strap s.params

/-- The write-back set holds each word at most once and only words of its class (R13); the word whose write-back is in
flight stands at its head (R14); the starvation counter holds 0..255 (R17); no word stays noted between events (log
entry 24). -/
def WriteBackSound (s : State) : Prop :=
  (s.mem.writeBacks.map (·.offset)).Nodup ∧ (∀ e ∈ s.mem.writeBacks, e.offset ∈ writtenBack) ∧
    (∀ o, writeBackInFlight s = some o → s.mem.writeBacks.head?.map (·.offset) = some o) ∧ s.mem.counter ≤ 255 ∧
    s.mem.noted = []

/-- The number of own-read requests of a source. -/
def requestsOf (src : ReadSource) (s : State) : Nat := s.mem.reads.countP fun r => decide (r.source = src)

/-- What the requester of source LOAD does in each part state (R41, R173, R174). -/
def readingFits (s : State) : Bool :=
  match s.part.state, s.part.reading with
  | .starting, .config answers => !s.resetPin && decide (answers.length < 16)
  | .starting, .idle => s.resetPin
  | .loading, .table i k => !s.resetPin && decide (i < 96) && decide (k < 6)
  | .running, .idle | .halted, .idle => !s.resetPin
  | _, _ => false

/-- The own-read request list holds one request of source LOAD while the configuration reading or the load runs, one of
source FETCH while a fetch or the read of an abandoned one is to be answered, and no other (R11, R155, R161). -/
def RequestsSound (s : State) : Prop :=
  readingFits s = true ∧ (s.notices.fetch.isSome && s.notices.orphan) = false ∧
    requestsOf .load s = (if s.part.reading = .idle then 0 else 1) ∧
    requestsOf .fetch s = (if (s.notices.fetch.isSome || s.notices.orphan) = true then 1 else 0) ∧
    (∀ r, readInFlight s = some r → s.mem.reads.head? = some r) ∧
    (s.notices.fetch.isSome = true → s.notices.queue ≠ [])

/-- A drop table entry fits its role (R95, R96, R110): one without a role is ONLINE with failure count 0 and nothing
shown, an OFFLINE one has failure count 0, no count passes 2, and only a wall row shows a slot. -/
def Drop.fits (d : Drop) : Bool :=
  decide (d.failures ≤ 2) && (d.online || decide (d.failures = 0)) &&
    match d.role with
    | .wall _ => true
    | .none => d.online && decide (d.failures = 0) && d.shown.isNone
    | _ => d.shown.isNone

/-- The drop table has the roles of the layout in force and entries that fit them; the pending set holds each drop at
most once and only ONLINE configured drops, the probe list each at most once and only OFFLINE configured drops (R94 to
R97, R111). The frame in flight, unless its outcome is to be discarded (R96), is to a configured drop, which is ONLINE
unless the frame is a probe. -/
def DisplaySound (s : State) : Prop :=
  s.display.drops.length = 128 ∧ (∀ a < 128, (dropAt s a).role = roleOf s.params a ∧ (dropAt s a).fits = true) ∧
    (s.display.marks.map (·.drop)).Nodup ∧
    (∀ m ∈ s.display.marks, (dropAt s m.drop).online = true ∧ (dropAt s m.drop).role ≠ .none) ∧
    (s.display.probes.map (·.drop)).Nodup ∧
    (∀ p ∈ s.display.probes, (dropAt s p.drop).online = false ∧ (dropAt s p.drop).role ≠ .none) ∧
    (∀ f, s.display.frame = some f → f.discard = false →
      (dropAt s f.drop).role ≠ .none ∧ (f.kind ≠ .probe → (dropAt s f.drop).online = true))

/-- An applied record and its derived fields (R26, R27, R64): Ke = Ks + 1440 o + d, each in its range. -/
def keysFit (r : Record) (k : Keys) : Bool :=
  decide (r.minute < 1440) && decide (r.delay ≤ 719) && decide (r.destination ≠ 0) && decide (k.ks < 1440) &&
    decide (-1 ≤ k.offset) && decide (k.offset ≤ 1) && decide (k.ke = k.ks + 1440 * k.offset + r.delay)

/-- A slot is VACANT exactly when it holds no applied record, and then no derived fields; otherwise both fit (R22, R27,
R31, R64). -/
def Slot.fits (x : Slot) : Bool :=
  match x.applied, x.keys with
  | none, none => decide (x.state = .vacant)
  | some r, some k => decide (x.state ≠ .vacant) && keysFit r k
  | _, _ => false

/-- The row map holds exactly the slots in state SCHEDULED, BOARDING, DEPARTING or CANCELLED, each once, in strictly
ascending order of the ordering key (R70, R74); every slot fits. -/
def RowMapSound (s : State) : Prop :=
  s.slots.length = 96 ∧ (∀ x ∈ s.slots, x.fits = true) ∧ s.rowMap.Nodup ∧
    (∀ i, i ∈ s.rowMap ↔ i < 96 ∧ (slotAt s i).state.active = true) ∧
    s.rowMap.Pairwise fun i j => before s i j = true

/-- A kind is a slot kind (R130). -/
def CueKind.ofSlot : CueKind → Bool
  | .platformChange | .cancellation | .delay | .boarding => true
  | .notice | .general | .emergency => false

/-- The cue queue holds at most 16 records, at most one of each slot kind for a slot (R131); a record has a slot exactly
when its kind is a slot kind (R130); no cue and no footnote refers to a VACANT or EXPIRED slot (R126). -/
def CuesSound (s : State) : Prop :=
  s.slots.length = 96 ∧ s.footnotes.length = 32 ∧ s.cues.queue.length ≤ 16 ∧
    s.cues.queue.Pairwise (fun a b => sameCue a b = false) ∧
    (∀ c ∈ s.cues.queue, c.slot.isSome = c.kind.ofSlot) ∧
    (∀ c ∈ s.cues.queue, ∀ i, c.slot = some i → (slotAt s i).state.active = true) ∧
    (∀ n, some n ∈ s.footnotes → (slotAt s n.slot).state.active = true)

/-- The link is SENDING exactly while a message is in flight, with a byte still to complete (R136, R144); the gap timer
runs exactly in GAP (R147); the busy timer runs only in SPEAKING and READY (R148); in link mode OFF the link is OFF once
no message is in flight, and in no other mode is it OFF (R143); the strobe is given only for a message in flight. -/
def LinkSound (s : State) : Prop :=
  (s.cues.link = .sending ↔ s.cues.msg.isSome = true) ∧ (s.cues.link = .gap ↔ s.cues.gapTimer.isSome = true) ∧
    (s.cues.busyTimer.isSome = true → s.cues.link = .speaking ∨ s.cues.link = .ready) ∧
    (s.params.linkMode = .off → s.cues.link = .off ∨ s.cues.link = .sending) ∧
    (s.cues.link = .off → s.params.linkMode = .off) ∧ (s.cues.strobe = true → s.cues.msg.isSome = true) ∧
    (∀ m, s.cues.msg = some m → m.index < m.bytes.length)

/-- The notice table holds 8 entries, those that are not EMPTY with distinct ids; the fetch queue holds at most 2
requests, for distinct entries that are FETCHING or ACTIVE and replacing (R151, R154). -/
def NoticeTableSound (s : State) : Prop :=
  s.notices.entries.length = 8 ∧
    (∀ i < 8, ∀ j < 8, (entryAt s i).state ≠ .empty → (entryAt s j).state ≠ .empty →
      (entryAt s i).id = (entryAt s j).id → i = j) ∧
    s.notices.queue.length ≤ 2 ∧ (s.notices.queue.map (·.entry)).Nodup ∧
    (∀ r ∈ s.notices.queue, r.entry < 8 ∧
      ((entryAt s r.entry).state = .fetching ∨
        (entryAt s r.entry).state = .active ∧ (entryAt s r.entry).replacing = true))

/-- An ACTIVE entry has a text of 1 to 240 bytes, and a fetch collects at most 240, all of them where a fragment had more
(R151, R155, R157, R158). -/
def NoticeTextSound (s : State) : Prop :=
  (∀ e ∈ s.notices.entries, e.state = .active → Within 1 e.text.length 240) ∧
    (∀ f, s.notices.fetch = some f → f.buf.length + f.left ≤ 240) ∧
    (∀ f, s.notices.fetch = some f → f.more = true → f.buf.length + f.left = 240)

/-- The rotation shows an ACTIVE entry, or none when no entry is ACTIVE, and the dwell timer runs exactly while it shows
one (R163). -/
def RotationSound (s : State) : Prop :=
  (∀ i, s.notices.shown = some i → i < 8 ∧ (entryAt s i).state = .active) ∧
    (s.notices.shown = none → ∀ i < 8, (entryAt s i).state ≠ .active) ∧
    s.notices.dwellTimer.isSome = s.notices.shown.isSome

/-- The invariants of the Notice Unit. -/
def NoticesSound (s : State) : Prop := NoticeTableSound s ∧ NoticeTextSound s ∧ RotationSound s

/-! ## The terms of the statements -/

/-- A processor write of a word of class c is in flight on the memory-side port, the pin released. -/
abbrev WriteAt (s : State) (a : Access) (c : WordClass) : Prop :=
  s.resetPin = false ∧ s.mem.port = .processor a ∧ a.write = true ∧ addrClass s.strap a.byteAddr = c

/-- A processor read of a word of class c is in flight on the memory-side port, the pin released. -/
abbrev ReadAt (s : State) (a : Access) (c : WordClass) : Prop :=
  s.resetPin = false ∧ s.mem.port = .processor a ∧ a.write = false ∧ addrClass s.strap a.byteAddr = c

/-- A trigger write with a byte enable set is in flight, and the staged command code is this one (R5, R166). -/
abbrev TriggerAt (s : State) (a : Access) (code : Nat) : Prop :=
  WriteAt s a .trigger ∧ a.lanes ≠ 0 ∧ commandCode s.cmd.staging = code

/-- A trigger that is taken and passes the test of the part state: none in execution, part RUNNING (R166, R167). -/
abbrev TakenAt (s : State) (a : Access) (code : Nat) : Prop :=
  TriggerAt s a code ∧ s.cmd.exec = none ∧ s.part.state = .running

/-- The Memory Path when the access in flight completes with this answer, held in `answer` (log entry 31). -/
def MemPath.answered (x : Answer) (m : MemPath) : MemPath := { m with port := .idle, answer := some x }

/-- An own access waits on an idle port (section 1.6). -/
abbrev OwnWaits (s : State) : Prop := s.mem.reads ≠ [] ∨ s.mem.writeBacks ≠ []

/-- The flags after events, pended one after another. -/
def Attention.after (events : List EventClass) (a : Attention) : Attention := events.foldl (fun a e => a.pend e) a

/-- COMMAND_TAKEN, if the staged command wants it (R166). -/
def takenEvents (s : State) : List EventClass := if ackWanted s.cmd.staging then [.commandTaken] else []

/-- The event word's flag of a class is pending. -/
abbrev IsPending (c : EventClass) (s : State) : Prop := s.att.pending.getLsbD c.bit = true

/-- The staged command has been taken and has completed with this status and these six results, its trigger write
answered (R5, R166, R168). -/
def Answered (err : Bool) (p : Primary) (q : Secondary) (results : List Word) (s t : State) : Prop :=
  t.cmd = { s.cmd with
      exec := none, response := responseHead s.cmd.staging p q :: results, count := s.cmd.count + 1 } ∧
    t.mem = { s.mem with port := .idle, answer := some (.writeDone err), writeBacks := t.mem.writeBacks }

/-- Beside the response, the flags and what `settle` tends, nothing differs from `u`: the frame of a command. -/
def OnlyCommand (u t : State) : Prop :=
  t = { u with mem := t.mem, cmd := t.cmd, att := t.att, cues := { u.cues with busyTimer := t.cues.busyTimer } }

/-- Up to what the end of an event tends, the write-back set and the busy timer, the state is `u`. -/
def UpToMarks (u t : State) : Prop :=
  t = { u with
    mem := { u.mem with writeBacks := t.mem.writeBacks }, cues := { u.cues with busyTimer := t.cues.busyTimer } }

/-- The command completes with this status and these results and changes nothing else: the flags are those of the
command's own events. -/
def RefusedAt (err : Bool) (q : Secondary) (s t : State) : Prop :=
  Answered err .refused q [0, 0, 0, 0, 0, 0] s t ∧ t.att = s.att.after (takenEvents s ++ [.commandDone]) ∧
    OnlyCommand s t

/-! ### Commits -/

/-- A write of the commit word of slot i with a byte enable set is in flight (R5). The table has its 96 slots. -/
abbrev CommitAt (s : State) (a : Access) (i : Nat) : Prop :=
  WriteAt s a (.commit i) ∧ a.lanes ≠ 0 ∧ s.slots.length = 96

/-- The staging copy of slot i with this write of its commit word merged in (R4, R5). -/
def stagedCommit (s : State) (a : Access) (i : Nat) : List Word :=
  (slotAt s i).staging.set 5 (mergeLanes ((slotAt s i).staging.getD 5 0) a.data a.lanes)

/-- A commit of slot i is considered (the table of R24). -/
def Considered (s : State) (i : Nat) : Prop :=
  s.part.state = .running ∨ s.part.state = .loading ∧ ∃ j k, s.part.reading = .table j k ∧ i < j

/-- A staging copy passes the four checks of R25. -/
def Passes (platforms : Nat) (staging : List Word) : Prop :=
  rawMinute staging < 1440 ∧ rawDay staging ≠ 3 ∧ rawPlatform staging ≤ platforms ∧ rawDestination staging ≠ 0

/-! ### Departures: what a record becomes, and what taking or losing it does (chapters 2, 4, 5 and 7) -/

/-- The record a staging copy holds, by the layout of section 11.1, its delay clamped to 719 (R26, R27). -/
def stagedRecord (staging : List Word) : Record :=
  let word := stagedWord staging
  { service := field (word 0) 0 16, operator := field (word 0) 16 8, destination := field (word 1) 0 12
    via := field (word 1) 16 12, minute := field (word 2) 0 11
    day := if field (word 2) 12 2 = 1 then .next else if field (word 2) 12 2 = 2 then .previous else .current
    platform := field (word 2) 16 6, delay := if 719 < field (word 3) 0 10 then 719 else field (word 3) 0 10
    cancelled := flag (word 3) 12, announce := flag (word 3) 13, formation := field (word 3) 16 8
    remark := field (word 4) 0 10 }

/-- The day offset o of a record (R27). -/
def dayOffset (r : Record) : Int :=
  match r.day with
  | .current => 0
  | .next => 1
  | .previous => -1

/-- The derived fields of a record under a roll minute (R27, R64): Ks = (s - r) mod 1440, Ke = Ks + 1440 o + d. -/
def derivedKeys (roll : Nat) (r : Record) : Keys :=
  let ks := (((r.minute : Int) - roll) % 1440).toNat
  { ks := ks, offset := dayOffset r, ke := ks + 1440 * dayOffset r + r.delay }

/-- The state that the table of R28 gives a record of expected key ke. -/
def tableState (q : Params) (c : Clock) (cancelled : Bool) (ke : Int) : SlotState :=
  let n : Int := (c.t / 60 : Nat)
  if cancelled = true then if c.state ≠ .unset ∧ ke + q.hold ≤ n then .expired else .cancelled
  else if c.state = .unset then .scheduled
  else if 60 * ke - c.t ≤ -(q.dwell : Int) then .expired
  else if ke - n ≤ 0 then .departing
  else if ke - n ≤ q.lead then .boarding
  else .scheduled

/-- The announce window (R72): announce set, the clock set, Rsec above 0, and C not above the horizon. -/
def windowAt (q : Params) (c : Clock) (r : Record) (ke : Int) : Bool :=
  r.announce && decide (c.state ≠ .unset ∧ 0 < 60 * ke - c.t ∧ ke - (c.t / 60 : Nat) ≤ q.horizon)

/-- The platform passengers are taken to know (R115), or, while a PLATFORM_CHANGE message of the slot is in flight, are about
to hear (R119). -/
def told (i : Nat) (s : State) : Nat :=
  match s.cues.msg with
  | some m => if m.cue.kind = .platformChange ∧ m.cue.slot = some i then m.cue.platform else (slotAt s i).announced
  | none => (slotAt s i).announced

/-- What a report compares (R116): nothing for a quiet one or a first record, else the platforms and the cancellations of the
old record and the new one. -/
structure Change where
  compared : Bool
  old : Nat
  new : Nat
  cancels : Bool
  reinstates : Bool

/-- The comparison of a report for slot i with a new record (R116). -/
def changeOf (quiet : Bool) (i : Nat) (r : Record) (s : State) : Change :=
  let x := slotAt s i
  let compared := !quiet && decide (x.state ≠ .vacant ∧ x.state ≠ .expired)
  let was := (x.applied.map (·.cancelled)).getD false
  { compared := compared, old := (x.applied.map (·.platform)).getD 0, new := r.platform
    cancels := compared && !was && r.cancelled, reinstates := compared && was && !r.cancelled }

/-- A platform change: from a platform to another (R116). -/
def Change.moves (d : Change) : Bool := d.compared && decide (d.old ≠ 0 ∧ d.new ≠ 0 ∧ d.old ≠ d.new)

/-- The footnote of a board after a report (R117, R120, R126): at any change of platform the old platform's board, and every
other that refers to the slot, directs to the new one, and the new platform's no longer refers to it; none refers to a slot
that is gone. A board above P keeps its record. -/
def footnoteAfter (d : Change) (gone : Bool) (i board : Nat) (q : Params) (n : Option Footnote) : Option Footnote :=
  let refers (n : Option Footnote) : Bool := n.any fun f => decide (f.slot = i)
  let n' : Option Footnote :=
    if d.compared = false ∨ d.old = d.new ∨ q.p < board then n
    else if board = d.new then (if refers n then none else n)
    else if board = d.old ∨ refers n = true then some { slot := i, toPlatform := d.new, left := q.changeHold }
    else n
  if gone && refers n' then none else n'

/-- From `s` to `t` every cue of slot i leaves the queue, a message in flight of one of them going on with its record REMOVED
(R126, R133, R136), told by its enqueue order (log entry 36); of a slot that is gone its outcome is to be ignored (R115, R122). -/
def LosesItsCues (gone : Bool) (i : Nat) (s t : State) : Prop :=
  t.cues.queue = s.cues.queue.filter (fun c => decide (c.slot ≠ some i)) ∧ t.cues.next = s.cues.next ∧
    t.cues.msg = s.cues.msg.map fun m => { m with
      condition :=
        if s.cues.queue.any (fun c => decide (c.slot = some i ∧ c.order = m.cue.order)) then .removed else m.condition
      gone := m.gone || (gone && decide (m.cue.slot = some i)) }

/-- From `s` to `t` slot i takes the record of this staging copy (R26 to R28, R39, R40, R64): applied record, derived fields,
state, last result, DELAY_CAPPED, generation; the announced platform taken from the record where it was 0 (R115); at a platform
change the highlight started, or stopped at a reversion (R118, R119); what an EXPIRED slot forgets (R126). The row map places
it, unless EXPIRED, behind the entries whose ordering key is less (R70, R75); the footnotes follow (R117, R120). -/
def TakesRecord (quiet : Bool) (i : Nat) (staging : List Word) (s t : State) : Prop :=
  let x := slotAt s i
  let r := stagedRecord staging
  let k := derivedKeys s.clock.roll r
  let state := tableState s.params s.clock r.cancelled k.ke
  let gone := decide (state = .expired)
  let d := changeOf quiet i r s
  let others := s.rowMap.filter fun j => decide (j ≠ i)
  let less (j : Nat) : Bool := decide (keOf s j < k.ke ∨
    keOf s j = k.ke ∧ (platformOf s j < r.platform ∨ platformOf s j = r.platform ∧ j < i))
  t.slots = s.slots.set i {
    staging := staging, applied := some r, keys := some k, state := state, lastResult := .taken
    capped := decide (719 < field (stagedWord staging 3) 0 10), generation := field (stagedWord staging 5) 8 8
    announced := if gone then 0 else if x.announced = 0 then r.platform else x.announced
    lastCued := if gone then none else x.lastCued
    highlight :=
      if gone then none
      else if d.moves then (if r.cancelled = false ∧ r.platform = told i s then none else some s.params.changeHold)
      else x.highlight } ∧
  t.rowMap = (if gone then others else others.insertIdx (others.countP less) i) ∧
  t.footnotes = s.footnotes.zipIdx.map fun e => footnoteAfter d gone i (e.2 + 1) s.params e.1

/-- From `s` to `t` slot i is vacated with this last result and generation (R31, R42, R126): nothing is left of its record, its
announced platform, last cued delay and highlight; it is out of the row map, and no cue and no footnote refers to it. -/
def IsVacated (result : LastResult) (generation i : Nat) (staging : List Word) (s t : State) : Prop :=
  t.slots = s.slots.set i {
    staging := staging, applied := none, keys := none, state := .vacant, lastResult := result, capped := false
    generation := generation, announced := 0, lastCued := none, highlight := none } ∧
  t.rowMap = s.rowMap.filter (fun j => decide (j ≠ i)) ∧
  t.footnotes = s.footnotes.map (fun n => if n.any (fun f => decide (f.slot = i)) then none else n) ∧
  LosesItsCues true i s t

/-- The frame of a change to slots (a commit, a load outcome): nothing else differs from `u`. -/
def OnlySlots (u t : State) : Prop :=
  t = { u with
    mem := { u.mem with writeBacks := t.mem.writeBacks }
    slots := t.slots, rowMap := t.rowMap, footnotes := t.footnotes, att := t.att
    display := { u.display with marks := t.display.marks, joinSeq := t.display.joinSeq }
    cues := { u.cues with
      queue := t.cues.queue, next := t.cues.next, msg := t.cues.msg, busyTimer := t.cues.busyTimer } }

/-! ### The cues of a slot (chapters 7 and 8) -/

/-- The record of slot i and this kind that waits. -/
def waiting (i : Nat) (k : CueKind) (s : State) : Option Cue :=
  s.cues.queue.find? fun c => decide (c.slot = some i ∧ c.kind = k)

/-- A cue of a slot as it is made (R118, R121, R122, R124, R130). -/
def madeCue (kind : CueKind) (i : Nat) (r : Record) (fromPlatform delay repeats : Nat) (order : BitVec 32) : Cue :=
  { kind := kind, slot := some i, service := r.service, destination := r.destination
    expected := (r.minute + r.delay) % 1440, platform := r.platform, fromPlatform := fromPlatform, delay := delay
    phrase := 0, repeatsLeft := repeats, repeatCount := 0, notBefore := none, aborts := 0, order := order }

/-- A cue made where one of its slot and kind may wait: it replaces that one in place, whose order and repeats left it keeps,
or joins as it was made (R118, R130, R131). -/
def inPlaceOf (old : Option Cue) (c : Cue) : Cue :=
  match old with
  | some e => { c with order := e.order, repeatsLeft := e.repeatsLeft }
  | none => c

/-- Whether a fresh enqueue order is used. -/
def fresh (b : Bool) : BitVec 32 := if b then 1 else 0

/-- From `s` to `t` the cues of slot i are settled by a report that is not quiet (R116, R118 to R124, R126): which of each kind
waits, with what parameters and enqueue order. Cues of other slots, and the message in flight but for its record's condition
(R136), stay. The records are told apart by their orders. -/
def ReportSettles (i : Nat) (staging : List Word) (s t : State) : Prop :=
  let q := s.params
  let r := stagedRecord staging
  let k := derivedKeys s.clock.roll r
  let state := tableState q s.clock r.cancelled k.ke
  let open' := windowAt q s.clock r k.ke
  let d := changeOf false i r s
  let out := decide (state = .expired) || !r.announce
  let cancels := d.cancels && open'
  let changes := d.moves && !r.cancelled && decide (r.platform ≠ told i s) && open'
  let delays := !r.cancelled && open' && decide (q.threshold ≤ r.delay) &&
    match (slotAt s i).lastCued with
    | none => true
    | some l => decide (q.step ≤ (r.delay - l) + (l - r.delay))
  let made (k : CueKind) : Bool :=
    match k with
    | .cancellation => cancels
    | .platformChange => changes
    | .delay => delays
    | _ => false
  let isNew (k : CueKind) : Bool := made k && (waiting i k s).isNone
  let refreshed (k : CueKind) : Option Cue := (waiting i k s).map fun c => { c with
    service := r.service, destination := r.destination, expected := (r.minute + r.delay) % 1440
    platform := if k = .platformChange then c.platform else r.platform }
  let next := s.cues.next
  waiting i .cancellation t =
    (if out then none
     else if cancels then some (inPlaceOf (waiting i .cancellation s) (madeCue .cancellation i r 0 0 q.repeats next))
     else if d.reinstates then none else refreshed .cancellation) ∧
  waiting i .platformChange t =
    (if out || d.cancels then none
     else if changes then some (inPlaceOf (waiting i .platformChange s)
      (madeCue .platformChange i r (told i s) 0 q.repeats next))
     else if d.compared && decide (d.old ≠ 0 ∧ d.old ≠ d.new) then none
     else refreshed .platformChange) ∧
  waiting i .delay t =
    (if out || d.cancels || decide (state = .departing) then none
     else if r.cancelled then refreshed .delay
     else if delays then some (inPlaceOf (waiting i .delay s)
      (madeCue .delay i r 0 r.delay 0 (next + fresh (isNew .platformChange))))
     else none) ∧
  waiting i .boarding t =
    (if out || d.cancels || decide (state = .scheduled ∨ state = .departing) then none else refreshed .boarding) ∧
  t.cues.queue.filter (fun c => decide (c.slot ≠ some i)) = s.cues.queue.filter (fun c => decide (c.slot ≠ some i)) ∧
  t.cues.next =
    next + fresh (isNew .cancellation) + fresh (isNew .platformChange) + fresh (isNew .delay) ∧
  ((s.cues.queue.map (·.order)).Nodup → t.cues.msg = s.cues.msg.map fun m => { m with
    condition :=
      match s.cues.queue.find? (fun c => decide (c.order = m.cue.order)) with
      | some e =>
        if m.condition = .removed ∨ e.slot ≠ some i then m.condition
        else if (waiting i e.kind t).isNone then .removed
        else if made e.kind then .replaced
        else m.condition
      | none => m.condition
    gone := m.gone || (decide (state = .expired) && decide (m.cue.slot = some i)) })

/-! ### Marks (R89 to R93, R97, R101) -/

/-- The cause class of a record taken over an old one is URGENT: a platform change or withdrawal, or a cancellation (R90). -/
def UrgentChange (old : Option Record) (r : Record) : Bool :=
  match old with
  | some o => decide (o.platform ≠ 0 ∧ o.platform ≠ r.platform ∨ o.cancelled = false ∧ r.cancelled = true)
  | none => false

/-- The marks that a change to slot i asks for, each a drop and whether it is URGENT, in the order of their handing over: the
wall rows and then the boards whose rendered content differs, of the cause class where the slot is concerned and else ROUTINE
(R89 to R91). In HOLD an URGENT one for a wall row gives place to one for each wall row drop that shows the slot (R101; among
those in ascending row order, log entry 21). -/
def askedMarks (urgent : Bool) (i : Nat) (s t : State) : List (Nat × Bool) :=
  let ofSlot (c : Option (Nat × Option Content)) : Bool := decide (c.map (·.1) = some i)
  let q := s.params
  let rows := ((List.range q.w).filter fun row => decide (rowContent s row ≠ rowContent t row)).flatMap fun row =>
    if urgent && (ofSlot (rowContent s row) || ofSlot (rowContent t row)) then
      if s.display.mode = .hold then
        (((List.range q.w).map (q.firstWall + ·)).filter fun a =>
          decide ((dropAt s a).shown.map (·.1) = some i)).map fun a => (a, true)
      else [(q.firstWall + row, true)]
    else [(q.firstWall + row, false)]
  let ofBoard (c : Option (Nat × Option Content) × Option (Nat × Nat × Nat)) : Bool :=
    ofSlot c.1 || decide (c.2.map (·.1) = some i)
  let boards := ((List.range q.p).filter fun k => decide (boardContent s (k + 1) ≠ boardContent t (k + 1))).map fun k =>
    (q.boardBase + k, urgent && (ofBoard (boardContent s (k + 1)) || ofBoard (boardContent t (k + 1))))
  rows ++ boards

/-- The pending set of `t` is that of `s` with these marks joined, each carrying slot i where it is URGENT (R97): a drop's mark
already there is raised in its place, any other joins at the tail, and one for a drop that is OFFLINE or holds no role is
discarded. The numbers are those of log entry 27. -/
def MarksJoin (asked : List (Nat × Bool)) (i : Nat) (s t : State) : Prop :=
  let urgent (drop : Nat) : Bool := asked.any fun x => decide (x.1 = drop) && x.2
  let cause (drop : Nat) : Option Nat := if urgent drop then some i else none
  let joined := ((asked.map (·.1)).eraseDups.filter fun a =>
    (dropAt s a).online && decide ((dropAt s a).role ≠ .none) && !s.display.marks.any fun e => decide (e.drop = a))
  t.display.marks =
      (s.display.marks.map fun e => { e with
        urgent := e.urgent || urgent e.drop, cause := (cause e.drop).or e.cause }) ++
      joined.zipIdx.map (fun e => { drop := e.1, urgent := urgent e.1, cause := cause e.1, seq := s.display.joinSeq + e.2 }) ∧
    t.display.joinSeq = s.display.joinSeq + joined.length

/-! ### Time -/

/-- The frame of a time advance: nothing else differs from `u`. -/
def OnlyTime (u t : State) : Prop :=
  t = { u with
    mem := { u.mem with writeBacks := t.mem.writeBacks }
    slots := t.slots, rowMap := t.rowMap, footnotes := t.footnotes, clock := t.clock, att := t.att
    display := { u.display with marks := t.display.marks, joinSeq := t.display.joinSeq }
    cues := { u.cues with
      queue := t.cues.queue, next := t.cues.next, msg := t.cues.msg, busyTimer := t.cues.busyTimer }
    notices := { u.notices with
      entries := t.notices.entries, rotIndex := t.notices.rotIndex, shown := t.notices.shown
      dwellTimer := t.notices.dwellTimer }
    refTime := t.refTime, freeCount := t.freeCount }

/-- The seconds left of a timer after some have passed: none when it has run out (R81, R82). -/
def ranDown (passed : Nat) (left : Option Nat) : Option Nat := left.bind fun l => if l ≤ passed then none else some (l - passed)

/-- A slot after a time advance to clock c, with or without a day roll (R32 to R35, R71, R82, R115, R122): at the roll offset
-1 is forced to EXPIRED and any other rebased; then the state the time gives, if that lies further along its course; an
EXPIRED slot forgets, another's highlight runs down. -/
def Slot.advanced (roll : Bool) (passed : Nat) (q : Params) (c : Clock) (x : Slot) : Slot :=
  match x.state.active, x.applied, x.keys with
  | true, some r, some k =>
    let forced := roll && decide (k.offset = -1)
    let k' : Keys := if roll && !forced then { k with offset := k.offset - 1, ke := k.ke - 1440 } else k
    let due := tableState q c r.cancelled k'.ke
    let new := if forced then .expired else if x.state.course < due.course then due else x.state
    { x with
      state := new, keys := some k'
      highlight := if new = .expired then none else ranDown passed x.highlight
      announced := if new = .expired then 0 else x.announced
      lastCued := if new = .expired then none else x.lastCued }
  | _, _, _ => { x with highlight := ranDown passed x.highlight }

/-- A slot that was active in `s` has become EXPIRED in `t`. -/
def expires (i : Nat) (s t : State) : Bool :=
  (slotAt s i).state.active && decide ((slotAt t i).state = .expired)

/-- What a time advance makes of the slots, the row map and the footnotes (R32 to R35, R76, R81, R126). -/
def SlotsAdvance (roll : Bool) (passed : Nat) (s t : State) : Prop :=
  t.slots.length = s.slots.length ∧
  (∀ i < s.slots.length,
    ((slotAt s i).state.active = true → (slotAt s i).applied.isSome = true ∧ (slotAt s i).keys.isSome = true) →
    slotAt t i = (slotAt s i).advanced roll passed s.params t.clock) ∧
  t.rowMap = s.rowMap.filter (fun i => (slotAt t i).state.active) ∧
  t.footnotes = s.footnotes.map fun n => n.bind fun f =>
    if expires f.slot s t then none else (ranDown passed (some f.left)).map fun l => { f with left := l }

/-- What a time advance makes of the cues, with room for those it makes (R124, R126): a slot that reaches BOARDING in its window
makes its cue, one that reaches DEPARTING loses DELAY and BOARDING, an expired one every cue; any other cue stays. The enqueue
orders of several new cues are distinct, in an order left free (log entry 12). The message in flight goes on (R133): its record is
REMOVED where it left, REPLACED where a BOARDING cue replaced it (R136), and its outcome is to be ignored where its slot expired
(R115, R122). The records are told apart by their orders. -/
def CuesAdvance (s t : State) : Prop :=
  let slots := List.range s.slots.length
  let boards (i : Nat) : Bool := decide ((slotAt s i).state = .scheduled ∧ (slotAt t i).state = .boarding) &&
    match (slotAt t i).applied, (slotAt t i).keys with
    | some r, some k => windowAt s.params t.clock r k.ke
    | _, _ => false
  let departs (i : Nat) : Bool := decide (((slotAt s i).state = .scheduled ∨ (slotAt s i).state = .boarding) ∧
    (slotAt t i).state = .departing)
  let new := slots.filter fun i => boards i && (waiting i .boarding s).isNone
  s.cues.queue.length + new.length ≤ 16 →
    (∀ i < s.slots.length, ∀ k ∈ [CueKind.platformChange, .cancellation, .delay, .boarding],
      if expires i s t || departs i && decide (k = .delay ∨ k = .boarding) then waiting i k t = none
      else if boards i && decide (k = .boarding) then
        ∃ r ∈ (slotAt t i).applied, ∃ c ∈ waiting i .boarding t,
          c = inPlaceOf (waiting i .boarding s) (madeCue .boarding i r 0 0 0 c.order) ∧
          ((waiting i .boarding s).isNone = true → (c.order - s.cues.next).toNat < new.length)
      else waiting i k t = waiting i k s) ∧
    (new.map fun i => (waiting i .boarding t).map (·.order)).Nodup ∧
    t.cues.next = s.cues.next + BitVec.ofNat 32 new.length ∧
    t.cues.queue.filter (fun c => c.slot.isNone) = (s.cues.queue.filter fun c => c.slot.isNone) ∧
    ((s.cues.queue.map (·.order)).Nodup → t.cues.msg = s.cues.msg.map fun m => { m with
      condition :=
        match s.cues.queue.find? (fun c => decide (c.order = m.cue.order)) with
        | some e =>
          match e.slot with
          | some i =>
            if m.condition = .removed then .removed
            else if expires i s t || departs i && decide (e.kind = .delay ∨ e.kind = .boarding) then .removed
            else if boards i && decide (e.kind = .boarding) then .replaced
            else m.condition
          | none => m.condition
        | none => m.condition
      gone := m.gone || m.cue.slot.any fun i => expires i s t })

/-- An advance of the rotation selects entry n (R163): the lowest ACTIVE index above the one held, else the lowest. -/
def Selects (s : State) (n : Nat) : Prop :=
  n < 8 ∧ (entryAt s n).state = .active ∧
    ∀ j < 8, (entryAt s j).state = .active →
      (s.notices.rotIndex < n → s.notices.rotIndex < j → n ≤ j) ∧
        (n ≤ s.notices.rotIndex → j ≤ s.notices.rotIndex ∧ n ≤ j)

/-- What a minute event makes of the notices (R162, R163): each ACTIVE one with a lifetime is counted down, or expires (its text
empty: log entry 17); the rotation advances, once, if the one it shows is ACTIVE no more (log entry 14). -/
def NoticesAdvance (passed : Nat) (s t : State) : Prop :=
  (∀ i < 8, let e := entryAt s i
    if e.state = .active ∧ e.minutes ≠ 0 then
      if e.minutes ≤ passed then
        (entryAt t i).state = (if e.replacing then .fetching else .empty) ∧ (entryAt t i).id = e.id ∧
          (entryAt t i).result = .expired ∧ (entryAt t i).text = [] ∧ (entryAt t i).replacing = false
      else entryAt t i = { e with minutes := e.minutes - passed }
    else entryAt t i = e) ∧
  let u : State := { s with notices := { s.notices with entries := t.notices.entries } }
  match s.notices.shown with
  | some i =>
    if (entryAt t i).state = .active then t.notices = u.notices
    else (∀ n < 8, Selects u n → t.notices = { u.notices with
        shown := some n, rotIndex := n, dwellTimer := some (entryAt t n).dwell }) ∧
      ((∀ n < 8, (entryAt t n).state ≠ .active) → t.notices = { u.notices with shown := none, dwellTimer := none })
  | none => t.notices = u.notices

/-- What an event that is no commit marks (R61, R92, R163, R97): each wall row and board whose rendered content differs, ROUTINE;
the clock drop, URGENT, when `clock` holds; the ticker drop, when the rotation advanced. No mark leaves, and no other joins. -/
def AdvanceMarks (clock : Bool) (s t : State) : Prop :=
  let q := s.params
  let listens (a : Nat) : Prop := (dropAt s a).online = true ∧ (dropAt s a).role ≠ .none
  let has (a : Nat) : Prop := ∃ m ∈ t.display.marks, m.drop = a
  (∀ row < q.w, rowContent s row ≠ rowContent t row → listens (q.firstWall + row) → has (q.firstWall + row)) ∧
  (∀ k < q.p, boardContent s (k + 1) ≠ boardContent t (k + 1) → listens (q.boardBase + k) → has (q.boardBase + k)) ∧
  (clock = true → listens q.clockDrop → ∃ m ∈ t.display.marks, m.drop = q.clockDrop ∧ m.urgent = true) ∧
  (s.notices.shown ≠ t.notices.shown → listens q.tickerDrop → has q.tickerDrop) ∧
  (∀ e ∈ s.display.marks, ∃ m ∈ t.display.marks, m.drop = e.drop ∧ m.seq = e.seq ∧ (e.urgent = true → m.urgent = true)) ∧
  ∀ m ∈ t.display.marks, (∀ e ∈ s.display.marks, e.drop ≠ m.drop) →
    clock = true ∧ m.drop = q.clockDrop ∨ s.notices.shown ≠ t.notices.shown ∧ m.drop = q.tickerDrop ∨
      m.urgent = false ∧ m.cause = none ∧
        ((∃ row < q.w, m.drop = q.firstWall + row ∧ rowContent s row ≠ rowContent t row) ∨
          ∃ k < q.p, m.drop = q.boardBase + k ∧ boardContent s (k + 1) ≠ boardContent t (k + 1))

/-- What a change of T from that of `s` to that of `t` brings (R52, R53, R61, R92), with or without a day roll, or as the clock
leaves UNSET: the seconds and minutes passed, and what each block makes of them. Without a change nothing moves, and only a
change of the clock state marks. -/
def TimePasses (roll leaving : Bool) (s t : State) : Prop :=
  let old := s.clock.t
  let new := t.clock.t
  let stateChanged := decide (s.clock.state ≠ t.clock.state)
  if leaving = false ∧ roll = false ∧ new = old then
    t.slots = s.slots ∧ t.rowMap = s.rowMap ∧ t.footnotes = s.footnotes ∧ t.notices = s.notices ∧
      t.cues = { s.cues with busyTimer := t.cues.busyTimer } ∧ AdvanceMarks stateChanged s t
  else
    let minute := leaving || roll || decide (new / 60 ≠ old / 60)
    SlotsAdvance roll (if leaving then 0 else if roll then new + 86400 - old else new - old) s t ∧ CuesAdvance s t ∧
      (if minute then
        NoticesAdvance (if leaving then 0 else if roll then new / 60 + 1440 - old / 60 else new / 60 - old / 60) s t
       else t.notices = s.notices) ∧
      AdvanceMarks (minute || stateChanged) s t

/-- The seconds a tick advances T by (R51, R54). -/
def tickSeconds (c : Clock) : Nat := if 0 < c.slew then 2 else if c.slew < 0 ∧ c.holdNext = true then 0 else 1

/-- The clock after a tick (R51, R54). -/
def ticked (c : Clock) : Clock :=
  { c with
    t := (c.t + tickSeconds c) % 86400
    slew := if 0 < c.slew then c.slew - 1 else if c.slew < 0 ∧ c.holdNext = true then c.slew + 1 else c.slew
    holdNext := if c.slew < 0 then !c.holdNext else c.holdNext }

/-- The row of the event that brings a tick. -/
def tickRow : TickCause → Instr
  | .reference => .internalReferenceSecond
  | .pulse => .masterPulse

/-! ### Notices -/

/-- The fetch queue fits the table: distinct entries of it; and no fetch goes on while the read of an abandoned one is still to
be answered (R154, R161). -/
def FetchQueueFits (s : State) : Prop :=
  s.notices.entries.length = 8 ∧ (s.notices.queue.map (·.entry)).Nodup ∧ (∀ r ∈ s.notices.queue, r.entry < 8) ∧
    (s.notices.fetch.isSome && s.notices.orphan) = false

/-- How a fetch ends (R160): with this result and text, or with this failure and error address. -/
inductive Ending where
  | success (result : NoticeResult) (text : List Byte)
  | failure (result : NoticeResult) (errAddr : Nat)

/-- The ending is a success (R158). -/
def Ending.isSuccess : Ending → Bool
  | .success _ _ => true
  | .failure _ _ => false

/-- An entry finished, by the table of R160. -/
def Entry.finished (r : FetchReq) (x : Ending) (e : Entry) : Entry :=
  match x with
  | .success result text => { e with
      state := .active, cls := r.cls, dwell := r.dwell, minutes := r.lifetime, phrase := r.phrase, text := text
      replacing := false, result := result, errAddr := 0 }
  | .failure result errAddr => { e with
      state := if e.state = .active then .active else .empty, replacing := false, result := result, errAddr := errAddr }

/-- Waiting requests begin (R155, R156, R160): those at the head whose chain address is not below the memory limit end with
OUT_OF_RANGE; the first whose is below it begins, with the read of its first word. `base` is each entry before. -/
def RequestsBegin (base : Nat → Entry) (queue : List FetchReq) (rest : List ReadReq) (s t : State) : Prop :=
  let beyond (r : FetchReq) : Bool := decide (s.params.memLimit * 0x10000 ≤ r.chain)
  let left := queue.dropWhile beyond
  t.notices.queue = left ∧ t.notices.orphan = false ∧
    t.notices.fetch = left.head?.map (fun r => {
      addr := r.chain, stage := .descriptor 0, count := 0, buf := [], nextAddr := 0, len := 0, pos := 0, left := 0
      more := false }) ∧
    t.mem.reads = rest ++ left.head?.toList.map (fun r => { addr := r.chain, source := .fetch }) ∧
    ∀ j < 8, entryAt t j =
      match (queue.takeWhile beyond).find? fun r => decide (r.entry = j) with
      | some r => (base j).finished r (.failure .outOfRange r.chain)
      | none => base j

/-- The rotation and the pending set stay. -/
def RotationStays (s t : State) : Prop :=
  t.notices.shown = s.notices.shown ∧ t.notices.rotIndex = s.notices.rotIndex ∧
    t.notices.dwellTimer = s.notices.dwellTimer ∧ t.display = s.display

/-- The fetch in progress goes on as `g`, its next word requested behind the requests that remain. -/
def FetchGoesOn (g : Fetch) (rest : List ReadReq) (s t : State) : Prop :=
  t.mem.reads = rest ++ [{ addr := g.addr, source := .fetch }] ∧ t.notices = { s.notices with fetch := some g } ∧
    t.att = s.att ∧ t.display = s.display ∧ t.cues = { s.cues with busyTimer := t.cues.busyTimer }

/-- The fetch of request r ends like this (R141, R160, R163), `more` waiting behind it. -/
def FetchEnds (x : Ending) (r : FetchReq) (more : List FetchReq) (rest : List ReadReq) (err : Bool) (s t : State) : Prop :=
  let cue := x.isSuccess && decide (r.phrase ≠ 0)
  let full := decide (16 ≤ s.cues.queue.length)
  let joins := cue && !full
  RequestsBegin (fun j => if j = r.entry then (entryAt s j).finished r x else entryAt s j) more rest s t ∧
    t.att = s.att.after
      ((if err then [.memoryFault] else []) ++ [.noticeDone] ++ if cue && full then [.cueDropped] else []) ∧
    t.cues = { s.cues with
      queue := if joins then s.cues.queue ++ [{
          kind := .notice, slot := none, service := 0, destination := 0, expected := 0, platform := 0, fromPlatform := 0
          delay := 0, phrase := r.phrase, repeatsLeft := 0, repeatCount := 0, notBefore := none, aborts := 0
          order := s.cues.next }]
        else s.cues.queue
      next := if joins then s.cues.next + 1 else s.cues.next
      busyTimer := t.cues.busyTimer } ∧
    (RotationSound s →
      if x.isSuccess = true ∧ (s.notices.shown = none ∨ s.notices.shown = some r.entry) then
        t.notices.shown = some r.entry ∧ t.notices.rotIndex = r.entry ∧ t.notices.dwellTimer = some r.dwell ∧
          t.display = (joinMark (markFor s.params.tickerDrop (decide (r.cls = .disruption)) none) s).display
      else RotationStays s t)

/-- The frame of the answer of a fetch: nothing else differs from `u`. -/
def OnlyNotices (u t : State) : Prop :=
  t = { u with
    mem := { u.mem with writeBacks := t.mem.writeBacks }
    notices := t.notices, att := t.att
    display := { u.display with marks := t.display.marks, joinSeq := t.display.joinSeq }
    cues := { u.cues with queue := t.cues.queue, next := t.cues.next, busyTimer := t.cues.busyTimer } }

/-- The rotation shows entry n, its dwell timer started and the ticker drop marked (R163). -/
def showing (n : Nat) (s : State) : State :=
  joinMark (markFor s.params.tickerDrop (decide ((entryAt s n).cls = .disruption)) none)
    { s with notices := { s.notices with shown := some n, rotIndex := n, dwellTimer := some (entryAt s n).dwell } }

/-! ### Cue messages -/

/-- The gating drop of slot i (R127): in HOLD the wall row drop of the lowest row that shows the slot; in RUN and FREEZE that of
the slot's row map position, if it is below W. -/
def gatedBy (i : Nat) (s : State) : Option Nat :=
  ((if s.display.mode = .hold then
      (List.range s.params.w).find? fun row => decide ((dropAt s (s.params.firstWall + row)).shown.map (·.1) = some i)
    else (s.rowMap.findIdx? fun j => decide (j = i)).filter fun row => decide (row < s.params.w))).map (s.params.firstWall + ·)

/-- A record may be begun as far as itself goes (R128, R134): its not-before time is none or has passed (log entry 10), it meets
the gate, and its message is not in flight. It meets the gate where it has no slot, where it names no platform and is no
PLATFORM_CHANGE, and where its slot has no gating drop, an OFFLINE one, or one whose acknowledged frame shows the slot at the cue's
platform. -/
def MayGo (s : State) (c : Cue) : Prop :=
  (∀ n, c.notBefore = some n → n.passed = true ∨ n.time < s.refTime) ∧
    (∀ i, c.slot = some i → c.kind = .platformChange ∨ c.platform ≠ 0 → ∀ a, gatedBy i s = some a →
      (dropAt s a).online = false ∨ (dropAt s a).shown = some (i, c.platform)) ∧
    ∀ m, s.cues.msg = some m → m.cue.order = c.order → m.condition = .removed

/-- This event ends the handshake of the byte being sent (R144 to R146). -/
def EndsHandshake (c : Instr) (s : State) (m : Message) : Prop :=
  c = .acknowledgeInput .fall ∧ m.mode = .acknowledged ∧ s.cues.ackIn = true ∧ m.ack = .risen ∨
    c = .acknowledgeInput .riseAndFall ∧ m.mode = .acknowledged ∧ s.cues.ackIn = false ∨
    c = .strobePulseEnd ∧ m.mode = .busy ∧ s.cues.strobe = true ∨ c = .timedSpacingExpiry ∧ m.mode = .timed

/-- The acknowledge input's level after such an event. -/
def ackAfter (c : Instr) (s : State) : Bool := if c = .acknowledgeInput .fall then false else s.cues.ackIn

/-- The state of the link when it enters GAP: READY at once for a gap of 0 (R147). -/
def gapState (s : State) : LinkState := if s.params.gap = 0 then .ready else .gap

/-- The gap timer when the link enters GAP: the gap in force, none for a gap of 0 (R147). -/
def gapTime (s : State) : Option Nat := if s.params.gap = 0 then none else some s.params.gap

/-- The record of the message in flight, where its outcome counts against it (R137 to R139). The records are told apart by their
orders (log entry 36). -/
def countedRecord (m : Message) (s : State) : Option Cue :=
  if m.condition = .unchanged then s.cues.queue.find? fun c => decide (c.order = m.cue.order) else none

/-- The slot whose waiting PLATFORM_CHANGE record an abort of this message sets back (R119). -/
def setsBack (m : Message) : Option Nat :=
  if m.cue.kind = .platformChange ∧ m.condition ≠ .unchanged then m.cue.slot else none

/-- A PLATFORM_CHANGE record of slot i. -/
def changesSlot (i : Nat) (c : Cue) : Bool := decide (c.kind = .platformChange ∧ c.slot = some i)

/-- The queue after an abort (R119, R138, R139): the record counted against is noted once and leaves the second time; a record set
back has its from-platform at the announced platform, or leaves where it then goes nowhere; every other record stays. -/
def queueAfterAbort (m : Message) (s : State) : List Cue :=
  match setsBack m, countedRecord m s with
  | some i, _ =>
    let a := (slotAt s i).announced
    if s.cues.queue.any (fun c => changesSlot i c && decide (c.platform = a)) then s.cues.queue.filter fun c => !changesSlot i c
    else s.cues.queue.map fun c => if changesSlot i c then { c with fromPlatform := a } else c
  | none, some r =>
    if r.aborts = 0 then s.cues.queue.map fun c => if c.order = r.order then { c with aborts := 1 } else c
    else s.cues.queue.filter fun c => decide (c.order ≠ r.order)
  | none, none => s.cues.queue

/-- The slots after an abort: the highlight stops where the record set back would go nowhere, as for a reversion (R119). -/
def slotsAfterAbort (m : Message) (s : State) : List Slot :=
  match setsBack m with
  | some i =>
    if s.cues.queue.any (fun c => changesSlot i c && decide (c.platform = (slotAt s i).announced)) then
      s.slots.set i { slotAt s i with highlight := none }
    else s.slots
  | none => s.slots

end Sys2Proof.Machine
end

