-- ==== Sys2Proof/Certificates/Slice0/Obligations.lean ====
section
/-! DEFINITION. The statements for the provers. In each, `settle s u` stands for `u` with the words marked that the event
changed and the busy timer tended; `SettleMarksAndTends` says exactly what it changes (log entries 13, 24, 39). The completion that
an access is given stands in `mem.answer` (log entry 31). -/

open Sys2Proof Sys2Proof.Machine

/-! ## The machine as a whole -/

/-- A step is the command at the front of the queue, run with the queue's rest. On an empty queue the block idles: that
clause is the model's choice, log entry 2. -/
def Obligations.StepRunsTheFrontCommand : Prop :=
  (∀ (c : Instr) (rest : List Instr) (s : State), s.pending = c :: rest → step s = exec c { s with pending := rest }) ∧
    ∀ s : State, s.pending = [] → step s = .next s

/-- Every command answers a next state and leaves the queue, whatever the state (the model's choice: log entries 1 and 30, and for
HARD_RESET, which leaves the queue, log entry 33). -/
def Obligations.EveryCommandAnswersANextState : Prop :=
  ∀ (c : Instr) (s : State), ∃ t, exec c s = .next t ∧ t.pending = s.pending

/-- What the end of an event does (R13, R14, R148). It marks the words of the write-back class, in ascending offset, whose
content differs or was noted as changed within the event: the response words at a completion, the clock word where the minute,
the state, the source, the slewing flag or the roll minute differs, any other where its value differs. A mark of the word in
flight is held against it as a change since start; a word in the set keeps its place; the others join at the tail without such a
change. The busy timer runs on, starts or stops by its condition. Nothing else changes. That the words of one event join
together, in one order across the blocks, is the model's choice, log entry 13; so is what counts as a change, log entry 24, and that
the busy timer's condition is judged at the event's end, log entry 39. -/
def Obligations.SettleMarksAndTends : Prop :=
  ∀ s t : State,
    let same (o : Nat) : Prop :=
      match classOf o with
      | .response _ => s.cmd.count = t.cmd.count
      | .clock => s.clock.t / 60 = t.clock.t / 60 ∧ s.clock.state = t.clock.state ∧ s.clock.source = t.clock.source ∧
          (s.clock.slew = 0 ↔ t.clock.slew = 0) ∧ s.clock.roll = t.clock.roll
      | c => partWord s c = partWord t c
    let timed : Bool := match t.cues.link with
      | .speaking => true
      | .ready => t.cues.busyIn && decide (t.params.linkMode ≠ .timed) && t.cues.queue.any (eligible t)
      | _ => false
    ∃ marked : List Nat, marked.Pairwise (· < ·) ∧
      (∀ o, o ∈ marked ↔ o ∈ writtenBack ∧ (¬same o ∨ o ∈ t.mem.noted.drop s.mem.noted.length)) ∧
      settle s t = { t with
        mem := { t.mem with
          noted := s.mem.noted
          writeBacks :=
            (match t.mem.port, t.mem.writeBacks with
              | .writeBack _ _, e :: rest => { e with changed := e.changed || marked.contains e.offset } :: rest
              | _, set => set) ++
            (marked.filter fun o => !t.mem.writeBacks.any fun e => decide (e.offset = o)).map fun o =>
              { offset := o, changed := false } }
        cues := { t.cues with
          busyTimer := if timed then t.cues.busyTimer.or (some t.params.busyLimit) else none } }

/-- The word classes of the managed region (R2): the table, word by word; 138 words are written back and 140 are
part-owned. -/
def Obligations.WordClassesOfTheRegion : Prop :=
  (∀ k < 7, classOf (4 * k) = .command k) ∧ classOf 0x1C = .trigger ∧ (∀ k < 8, classOf (0x20 + 4 * k) = .response k) ∧
    (∀ k < 16, classOf (0x40 + 4 * k) = .config k) ∧ classOf 0x80 = .clock ∧ classOf 0x84 = .event ∧
    classOf 0x88 = .fault ∧ classOf 0x8C = .summary ∧ (∀ o, 0x90 ≤ o → o < 0x100 → classOf o = .plain) ∧
    (∀ i < 8, ∀ k < 4, classOf (0x100 + 16 * i + 4 * k) = .notice i k) ∧
    (∀ o, 0x180 ≤ o → o < 0x1000 → classOf o = .plain) ∧
    (∀ i < 96, (∀ k < 5, classOf (0x1000 + 32 * i + 4 * k) = .record i k) ∧ classOf (0x1000 + 32 * i + 20) = .plain ∧
      classOf (0x1000 + 32 * i + 24) = .status i ∧ classOf (0x1000 + 32 * i + 28) = .commit i) ∧
    (∀ o, 0x1C00 ≤ o → o < 0x4000 → classOf o = .plain) ∧ writtenBack.length = 138 ∧
    (∀ o, o < 0x4000 → o % 4 = 0 → (o ∈ writtenBack ↔ (classOf o).partOwned = true ∧ o ≠ 0x84 ∧ o ≠ 0x88))

/-- The window (R1): its base is the strap value times 4 MiB, a word outside it is pass-through and one inside is classed by its offset,
and the sampled straps change at the assertion of the hard reset pin and at nothing else. That a HARD_RESET samples the straps also with
the pin asserted already is the model's choice, log entry 3. -/
def Obligations.WindowFollowsTheSampledStraps : Prop :=
  (∀ (strap : BitVec 4) (addr : Nat),
    (addr < strap.toNat * 0x400000 ∨ strap.toNat * 0x400000 + 0x4000 ≤ addr → addrClass strap addr = .plain) ∧
      ∀ offset < 0x4000, addrClass strap (strap.toNat * 0x400000 + offset) = classOf offset) ∧
    ∀ (c : Instr) (s t : State), exec c s = .next t →
      (∀ straps, c = .hardReset straps → t.strap = straps) ∧ ((∀ straps, c ≠ .hardReset straps) → t.strap = s.strap)

/-- A pended event sets its pending flag, and its request flag if it is not masked; no other flag changes; the line is
asserted while any request flag is set (R170). The bits of the classes are those of section 11.3. -/
def Obligations.PendedEventSetsItsFlags : Prop :=
  ∀ (c : EventClass) (a : Attention),
    (a.pend c).mask = a.mask ∧
    (∀ i < 14, (a.pend c).pending.getLsbD i = (a.pending.getLsbD i || decide (i = c.bit)) ∧
      (a.pend c).request.getLsbD i = (a.request.getLsbD i || (decide (i = c.bit) && a.mask.getLsbD i))) ∧
    (a.line = true ↔ ∃ i < 14, a.request.getLsbD i = true) ∧
    [EventClass.started, .loadDone, .commandTaken, .commandDone, .mailboxOverrun, .protectedWrite, .memoryFault,
      .noticeDone, .dropOffline, .dropOnline, .cueDropped, .cueLinkChange, .clockChange, .dayRoll].map (·.bit) = List.range 14

/-! ## Bus accesses -/

/-- PROCESSOR_ACCESS_ARRIVES, for an access that is not a write of a part-owned word (R17, R18): it is started at once on an idle port,
except that in URGENT mode it waits while an own access waits, and that at the starvation limit it waits in NORMAL mode; on a busy port
it waits. Started with an own access waiting, it is counted; with none waiting, URGENT has ended. That the arrival at the limit itself
changes no mode and starts no own access, which R17 and R18 have the arbiter do and which the rows STARVATION_LIMIT_REACHED and
ARBITER_START then do, is the model's choice, log entry 11. So are the 30 bits of a word address, log entry 5, and that the completion
last given is held until an access arrives, log entry 31. -/
def Obligations.ArrivingAccessStartsOrWaits : Prop :=
  ∀ (addr : BitVec 30) (write : Bool) (data : Word) (lanes : BitVec 4) (s : State),
    s.resetPin = false → s.mem.waiting = none → (∀ b, s.mem.port ≠ .processor b) →
    (write = false ∨ (addrClass s.strap (4 * addr.toNat)).partOwned = false) →
    let a : Access := { addr := addr, write := write, data := data, lanes := lanes }
    let m : MemPath :=
      if s.mem.port ≠ .idle then { s.mem with waiting := some a, answer := none }
      else if OwnWaits s then
        if s.mem.mode = .normal ∧ s.mem.counter < s.params.starvation then
          { s.mem with port := .processor a, answer := none, counter := s.mem.counter + 1 }
        else { s.mem with waiting := some a, answer := none }
      else { s.mem with port := .processor a, answer := none, mode := .normal }
    exec (.processorAccessArrives addr write data lanes) s = .next (settle s { s with mem := m })

/-- ARBITER_START and STARVATION_LIMIT_REACHED (R16 to R18), on an idle port. `own` is the own access of R16: a read when a read waits
and either no write-back waits or the last own access was a write-back, else the write-back at the head, with the part's value of its
word at this moment (R14). That the start of a waiting access is a command, and that at the limit ARBITER_START does the same as
STARVATION_LIMIT_REACHED, is the model's choice, log entry 11. -/
def Obligations.ArbiterFollowsItsTable : Prop :=
  ∀ (s : State) (own : MemPath), s.resetPin = false → s.mem.port = .idle →
    (match s.mem.reads, s.mem.writeBacks with
      | r :: _, [] => own = { s.mem with port := .ownRead r, lastOwn := .read }
      | r :: _, e :: _ =>
        if s.mem.lastOwn = .writeBack then own = { s.mem with port := .ownRead r, lastOwn := .read }
        else own = { s.mem with port := .writeBack e.offset (partWord s (classOf e.offset)), lastOwn := .writeBack }
      | [], e :: _ =>
        own = { s.mem with port := .writeBack e.offset (partWord s (classOf e.offset)), lastOwn := .writeBack }
      | [], [] => own = s.mem) →
    (OwnWaits s → s.mem.mode = .urgent ∨ s.mem.waiting = none →
      exec .arbiterStart s = .next (settle s { s with mem := own })) ∧
    (OwnWaits s → s.mem.mode = .normal → ∀ a, s.mem.waiting = some a →
      (s.mem.counter < s.params.starvation → exec .arbiterStart s = .next (settle s { s with mem :=
        { s.mem with port := .processor a, waiting := none, counter := s.mem.counter + 1 } })) ∧
      (s.params.starvation ≤ s.mem.counter →
        exec .starvationLimitReached s = .next (settle s { s with mem := { own with mode := .urgent } }) ∧
        exec .arbiterStart s = exec .starvationLimitReached s)) ∧
    (¬OwnWaits s →
      (∀ a, s.mem.waiting = some a → exec .arbiterStart s = .next (settle s { s with mem :=
        { s.mem with port := .processor a, waiting := none, mode := .normal } })) ∧
      (s.mem.waiting = none → exec .arbiterStart s = .next (settle s { s with mem := { s.mem with mode := .normal } })))

/-- PASS_THROUGH_WRITE and CAPTURED_WRITE (R3, R4, R6, R23, R165): the write completes with the memory's error indication. A captured
word's staging copy takes the enabled lanes and keeps the others, whatever the indication; a configuration word's capture is kept (log
entry 6, the model's choice); a write of a plain word, or of a commit or trigger word with no byte enable set (log entry 7, the model's
choice of row), has no other effect. The completion is held in `mem.answer`, log entry 31, the model's choice. -/
def Obligations.ForwardedWritesCompleteAndAreCaptured : Prop :=
  (∀ (err : Bool) (s : State) (a : Access) (c : WordClass), WriteAt s a c →
    (c = .plain ∨ a.lanes = 0 ∧ (c = .trigger ∨ ∃ i, c = .commit i) →
      exec (.passThroughWrite err) s = .next (settle s { s with mem := s.mem.answered (.writeDone err) })) ∧
    (∀ k, c = .config k → k ≠ 9 → exec (.passThroughWrite err) s = .next (settle s { s with
      mem := s.mem.answered (.writeDone err)
      cmd := { s.cmd with config := s.cmd.config.set k (mergeLanes (s.cmd.config.getD k 0) a.data a.lanes) } })) ∧
    (∀ k, c = .command k → exec (.capturedWrite err) s = .next (settle s { s with
      mem := s.mem.answered (.writeDone err)
      cmd := { s.cmd with staging := s.cmd.staging.set k (mergeLanes (s.cmd.staging.getD k 0) a.data a.lanes) } })) ∧
    ∀ i k, c = .record i k → exec (.capturedWrite err) s = .next (settle s { s with
      mem := s.mem.answered (.writeDone err)
      slots := s.slots.set i { slotAt s i with
        staging := (slotAt s i).staging.set k (mergeLanes ((slotAt s i).staging.getD k 0) a.data a.lanes) } })) ∧
  ∀ (old data : Word) (lanes : BitVec 4), ∀ l < 4,
    laneByte (mergeLanes old data lanes) l = if lanes.getLsbD l then laneByte data l else laneByte old l

/-- PROTECTED_WRITE, and the same write as it arrives (R7): dropped, completed at once with the error indication clear, in either mode
and whatever is in flight for the part, and PROTECTED_WRITE is pended. The model's choices: the 30 bits of a word address, log entry 5;
the completion is held in `mem.answer`, log entry 31. -/
def Obligations.ProtectedWriteIsDropped : Prop :=
  ∀ (addr : BitVec 30) (data : Word) (lanes : BitVec 4) (s : State),
    s.resetPin = false → s.mem.waiting = none → (∀ b, s.mem.port ≠ .processor b) →
    (addrClass s.strap (4 * addr.toNat)).partOwned = true →
    exec (.protectedWrite addr data lanes) s = .next (settle s { s with
      mem := { s.mem with answer := some (.writeDone false) }, att := s.att.pend .protectedWrite }) ∧
    exec (.processorAccessArrives addr true data lanes) s = exec (.protectedWrite addr data lanes) s

/-- EVENT_MASK_WRITE (R6, R171): the mask takes the enabled lanes; a class unmasked is requested if it is pending, a class masked loses
its request, a class whose mask flag stays keeps both flags; nothing else changes but the kept capture (log entry 6). The completion is
held in `mem.answer`, log entry 31. Both are the model's choice. -/
def Obligations.EventMaskWriteSetsRequests : Prop :=
  ∀ (err : Bool) (s : State) (a : Access), WriteAt s a (.config 9) →
    ∃ att : Attention,
      exec (.eventMaskWrite err) s = .next (settle s { s with
        mem := s.mem.answered (.writeDone err), att := att
        cmd := { s.cmd with config := s.cmd.config.set 9 (mergeLanes (s.cmd.config.getD 9 0) a.data a.lanes) } }) ∧
      att.pending = s.att.pending ∧
      ∀ i < 14,
        att.mask.getLsbD i = (if a.lanes.getLsbD (i / 8) then a.data.getLsbD i else s.att.mask.getLsbD i) ∧
        att.request.getLsbD i =
          (if att.mask.getLsbD i = s.att.mask.getLsbD i then s.att.request.getLsbD i
           else att.mask.getLsbD i && s.att.pending.getLsbD i)

/-- PROCESSOR_READ, EVENT_WORD_READ and FAULT_WORD_READ (R8 to R10, R20, R172): the memory's data and error indication go back, the data
replaced by the part's value for a part-owned word. A read of the event word clears both flags of the classes it returned and no other;
a read of the fault word clears it; no other read has an effect. The completion is held in `mem.answer`, log entry 31, the model's
choice. -/
def Obligations.ReadsReturnTheirWord : Prop :=
  ∀ (data : Word) (err : Bool) (s : State) (a : Access),
    (∀ c, ReadAt s a c → c ≠ .event → c ≠ .fault →
      exec (.processorRead data err) s = .next (settle s { s with
        mem := s.mem.answered (.readDone (if c.partOwned then partWord s c else data) err) })) ∧
    (ReadAt s a .event → exec (.eventWordRead err) s = .next (settle s { s with
      mem := s.mem.answered (.readDone (s.att.request.setWidth 32) err)
      att := { s.att with pending := s.att.pending &&& ~~~s.att.request, request := 0 } })) ∧
    (ReadAt s a .fault → exec (.faultWordRead err) s = .next (settle s { s with
      mem := { s.mem.answered (.readDone (faultWord s.mem.fault) err) with fault := none } }))

/-- WRITE_BACK_COMPLETE, and OWN_READ_COMPLETE with an error (R12, R14, R17, R19): a word written leaves the set,
rejoining at the tail if a change since start is held against it; a failed read leaves the head of its list, whatever its
requester then does. Either way the counter is cleared, and an error is captured in the fault word, or sets its more flag,
and pends MEMORY_FAULT. -/
def Obligations.OwnAccessCompletes : Prop :=
  (∀ (err : Bool) (s : State) (o : Nat) (data : Word) (changed : Bool) (rest : List WbEntry),
    s.resetPin = false → s.mem.port = .writeBack o data → s.mem.writeBacks = { offset := o, changed := changed } :: rest →
    let m : MemPath := { s.mem with
      port := .idle, counter := 0
      writeBacks := if changed then rest ++ [{ offset := o, changed := false }] else rest }
    (err = false → exec (.writeBackComplete err) s = .next (settle s { s with mem := m })) ∧
    (err = true → exec (.writeBackComplete err) s = .next (settle s { s with
      mem := { m with fault := match s.mem.fault with
        | none => some { addr := s.strap.toNat * 0x400000 + o, write := true, source := .writeback, more := false }
        | some f => some { f with more := true } }
      att := s.att.pend .memoryFault }))) ∧
  ∀ (data : Word) (s : State) (r : ReadReq) (rest : List ReadReq),
    s.resetPin = false → s.mem.port = .ownRead r → s.mem.reads = r :: rest →
    ∃ t, exec (.ownReadComplete data true) s = .next t ∧ t.mem.port = .idle ∧ t.mem.counter = 0 ∧
      (∃ more, t.mem.reads = rest ++ more) ∧ IsPending .memoryFault t ∧
      t.mem.fault = match s.mem.fault with
        | none => some { addr := r.addr, write := false, source := r.source.fault, more := false }
        | some f => some { f with more := true }

/-- OWN_READ_COMPLETE of source FETCH (R155 to R161). A descriptor word is taken, of the third also the fragment count and how many
bytes the text buffer still takes; of a text word the bytes that belong to the fragment. The next word below the memory limit is
requested; one at or beyond it ends the fetch with OUT_OF_RANGE. The end of a fragment, or one of no bytes, is decided by the table
of R158, and a misaligned next address ends the fetch with BAD_ALIGN; a failed read ends it with MEMORY_FAULT. A success makes the
entry ACTIVE with the text, makes a NOTICE cue for a phrase (dropped from a full queue, since its class is the lowest), and shows
the entry if none, or itself, is shown; a failure leaves the entry as it was before, or EMPTY. Either way NOTICE_DONE is pended and
the next request begins. The answer of an abandoned read is discarded, and the next request begins. -/
def Obligations.FetchTakesItsChain : Prop :=
  ∀ (data : Word) (err : Bool) (s : State) (addr : Nat) (rest : List ReadReq),
    s.resetPin = false → s.mem.port = .ownRead { addr := addr, source := .fetch } →
    s.mem.reads = { addr := addr, source := .fetch } :: rest → FetchQueueFits s →
    ∃ t, exec (.ownReadComplete data err) s = .next t ∧
      OnlyNotices { s with mem := { s.mem with port := .idle, counter := 0, reads := t.mem.reads, fault := t.mem.fault } } t ∧
      t.mem.fault = (if err then some (match s.mem.fault with
        | none => { addr := addr, write := false, source := .fetch, more := false }
        | some f => { f with more := true }) else s.mem.fault) ∧
      (s.notices.orphan = true →
        RequestsBegin (entryAt s) s.notices.queue rest s t ∧ RotationStays s t ∧
          t.cues = { s.cues with busyTimer := t.cues.busyTimer } ∧
          t.att = s.att.after ((if err then [.memoryFault] else []) ++
            if s.notices.queue.head?.any fun r => decide (s.params.memLimit * 0x10000 ≤ r.chain) then [.noticeDone] else [])) ∧
      ∀ f r more, s.notices.orphan = false → s.notices.fetch = some f → s.notices.queue = r :: more →
        let proceeds (g : Fetch) : Prop :=
          if g.addr < s.params.memLimit * 0x10000 then FetchGoesOn g rest s t
          else FetchEnds (.failure .outOfRange g.addr) r more rest err s t
        let fragmentEnds (g : Fetch) : Prop :=
          if g.buf = [] ∧ (g.nextAddr = 0 ∨ g.count = 16) then FetchEnds (.failure .emptyText 0) r more rest err s t
          else if g.more then FetchEnds (.success .truncated g.buf) r more rest err s t
          else if g.nextAddr = 0 then FetchEnds (.success .ok g.buf) r more rest err s t
          else if g.buf.length = 240 ∨ g.count = 16 then FetchEnds (.success .truncated g.buf) r more rest err s t
          else if g.nextAddr % 4 ≠ 0 then FetchEnds (.failure .badAlign g.nextAddr) r more rest err s t
          else proceeds { g with addr := g.nextAddr, stage := .descriptor 0 }
        (err = true → FetchEnds (.failure .memoryFault addr) r more rest err s t) ∧
        (err = false →
          (f.stage = .descriptor 0 →
            proceeds { f with nextAddr := data.toNat, addr := f.addr + 4, stage := .descriptor 1 }) ∧
          (f.stage = .descriptor 1 →
            proceeds { f with len := data.toNat % 65536, addr := f.addr + 4, stage := .descriptor 2 }) ∧
          (f.stage = .descriptor 2 →
            let m := min f.len (240 - f.buf.length)
            let g : Fetch := { f with count := f.count + 1, pos := data.toNat, left := m, more := decide (m < f.len) }
            if m = 0 then fragmentEnds g
            else proceeds { g with addr := data.toNat - data.toNat % 4, stage := .text }) ∧
          (f.stage = .text →
            let bytes := ((List.range 4).filter fun k => decide (f.pos % 4 ≤ k ∧ k < f.pos % 4 + f.left)).map (laneByte data)
            let g : Fetch := { f with
              buf := f.buf ++ bytes, pos := f.pos + bytes.length, left := f.left - bytes.length, addr := f.addr + 4 }
            if g.left = 0 then fragmentEnds g else proceeds g))

/-! ## The configuration reading and the load -/

/-- OWN_READ_COMPLETE for a configuration word before the sixteenth (R174), and for record words 0 to 4 of a slot (R23,
R41): the answer is kept, or replaces the staging word, and the next word is requested; nothing else changes. -/
def Obligations.OwnReadAnswerIsTaken : Prop :=
  ∀ (data : Word) (s : State) (addr : Nat) (rest : List ReadReq),
    s.resetPin = false → s.mem.port = .ownRead { addr := addr, source := .load } →
    s.mem.reads = { addr := addr, source := .load } :: rest →
    let asked (next : Nat) : MemPath :=
      { s.mem with port := .idle, counter := 0, reads := rest ++ [{ addr := next, source := .load }] }
    (∀ answers, s.part.reading = .config answers → answers.length < 15 →
      exec (.ownReadComplete data false) s = .next (settle s { s with
        mem := asked (strapBase s.strap + 0x40 + 4 * (answers.length + 1))
        part := { s.part with reading := .config (answers ++ [data]) } })) ∧
    ∀ i k, s.part.reading = .table i k → k < 5 →
      exec (.ownReadComplete data false) s = .next (settle s { s with
        mem := asked (strapBase s.strap + 0x1000 + 32 * i + (if k = 4 then 28 else 4 * (k + 1)))
        part := { s.part with reading := .table i (k + 1) }
        slots := s.slots.set i { slotAt s i with staging := (slotAt s i).staging.set k data } })

/-- A configuration reading that fails (R173 to R177), by a read fault or by an invalid configuration: the part enters
HALTED, STARTED is pended, every parameter, role, slot, and the clock stay; CONFIG_CLAMPED is set by the words judged, and
left by a read fault; a RELOAD in execution completes FAILED, and with none in execution the command area stays. -/
def Obligations.FailedConfigurationHalts : Prop :=
  ∀ (data : Word) (err : Bool) (s : State) (addr : Nat) (rest : List ReadReq) (answers : List Word),
    s.resetPin = false → s.mem.port = .ownRead { addr := addr, source := .load } →
    s.mem.reads = { addr := addr, source := .load } :: rest → s.part.reading = .config answers →
    (err = true ∨
      answers.length = 15 ∧ ¬LayoutValid s.strap (paramsOf (answers ++ [data]))) →
    ∃ t, exec (.ownReadComplete data err) s = .next t ∧ t.part.state = .halted ∧ t.part.reading = .idle ∧
      IsPending .started t ∧ t.mem.reads = rest ∧
      t.part.clamped = (if err then s.part.clamped else configClamped (answers ++ [data])) ∧
      t.part.configured = s.part.configured ∧
      (∀ words, s.cmd.exec = some words → t.cmd = { s.cmd with
        exec := none, count := s.cmd.count + 1
        response := if err then
            responseHead words .failed .memoryFault :: [resultOf addr, 0, 0, 0, 0, 0]
          else
            responseHead words .failed .configInvalid ::
              [resultOf (bitOf (configClamped (answers ++ [data]))), 0, 0, 0, 0, 0] }) ∧
      (s.cmd.exec = none → t.cmd = s.cmd) ∧
      t = { s with mem := t.mem, part := t.part, att := t.att, cmd := t.cmd,
                   cues := { s.cues with busyTimer := t.cues.busyTimer } }

/-- A valid configuration is applied as a whole at its sixteenth answer (R47, R48, R81, R94, R96, R143, R173, R175, R176): the
parameters as brought into range, and the drop table entry by entry, with the marks and probe requests that go and the frame in flight
whose outcome is to be discarded; the source at the first reading since hard reset (that a change of it does what SET SOURCE does is log
entry 18, the model's choice); the roll minute, T moved around civil time on a set clock with what that brings (its comparison by log
entry 19, the model's choice); the boards above P; the link state by the new mode. The part enters LOADING, STARTED is pended, the load
begins at slot 0. Slots, row map, cues, notices stay but for what a moved T brings (R177). Further choices of the model: where the moved
T expires several notices the rotation advances once, log entry 14, with the fields of log entry 17; several slots report in an order
left free, log entry 12; a gap of 0 is READY at once, log entry 26; the slew phase restarts at a change of source, log entry 34; a link
that is SENDING stays so where the mode leaves OFF, log entry 40. -/
def Obligations.ValidConfigurationIsApplied : Prop :=
  ∀ (data : Word) (s : State) (addr : Nat) (rest : List ReadReq) (answers : List Word),
    s.resetPin = false → s.mem.port = .ownRead { addr := addr, source := .load } →
    s.mem.reads = { addr := addr, source := .load } :: rest → s.part.reading = .config answers →
    answers.length = 15 → s.clock.t < 86400 → s.clock.roll < 1440 → DisplaySound s →
    let words := answers ++ [data]
    let q := paramsOf words
    LayoutValid s.strap q →
    ∃ t, exec (.ownReadComplete data false) s = .next t ∧ t.params = q ∧
      t.part = { state := .loading, reading := .table 0 0, clamped := configClamped words, configured := true } ∧
      t.mem.reads = rest ++ [{ addr := strapBase s.strap + 0x1000, source := .load }] ∧ IsPending .started t ∧
      -- the drop table
      (∀ a < 128,
        let d := dropAt s a
        let role : Role :=
          if q.firstWall ≤ a ∧ a < q.firstWall + q.w then .wall (a - q.firstWall)
          else if a = q.clockDrop then .clock
          else if a = q.tickerDrop then .ticker
          else if q.boardBase ≤ a ∧ a < q.boardBase + q.p then .board (a - q.boardBase + 1)
          else .none
        dropAt t a =
          (if role = .none then { role := .none, online := true, failures := 0, shown := none }
          else match d.role, role with
            | .wall _, .wall _ => { d with role := role }
            | _, _ => { d with role := role, shown := none })) ∧
      t.display.probes = s.display.probes.filter (fun p => decide ((dropAt t p.drop).role ≠ .none)) ∧
      t.display.frame = s.display.frame.map (fun f => { f with
        discard := f.discard || decide ((dropAt t f.drop).role ≠ (dropAt s f.drop).role) }) ∧
      -- the Time Base
      (let source := if s.part.configured then s.clock.source else sourceOf (rawSource words)
       let changes := decide (source ≠ s.clock.source)
       let roll := cfRoll.value words
       let moves := decide (roll ≠ s.clock.roll ∧ s.clock.state ≠ .unset)
       let c : Clock := { s.clock with
          roll := roll
          t := if moves then ((((s.clock.t + 60 * s.clock.roll : Nat) : Int) - (60 * roll : Nat)) % 86400).toNat
            else s.clock.t }
       let toGap := decide (q.linkMode = .timed ∧ (s.cues.link = .speaking ∨ s.cues.link = .stalled))
       let toOff := decide (q.linkMode = .off ∧ s.cues.msg = none)
       let u : State := { s with
          params := q, clock := { s.clock with roll := roll }, part := t.part
          mem := { s.mem with port := .idle, counter := 0, reads := t.mem.reads }
          footnotes := s.footnotes.zipIdx.map fun e => if q.p < e.2 + 1 then none else e.1
          display := { s.display with
            drops := t.display.drops, probes := t.display.probes, frame := t.display.frame
            marks := s.display.marks.filter fun m => decide ((dropAt t m.drop).role ≠ .none) }
          cues := { s.cues with
            link :=
              if toOff then .off
              else if toGap then (if q.gap = 0 then .ready else .gap)
              else if s.cues.link = .off ∧ q.linkMode ≠ .off then .ready
              else s.cues.link
            gapTimer := if toOff then none else if toGap then (if q.gap = 0 then none else some q.gap)
              else s.cues.gapTimer } }
       t.clock = (if changes then { c with
          source := source, slew := 0, holdNext := false, loss := none
          state := if c.state = .unset then .unset else if source = .internal then .running else .freerun } else c) ∧
       (changes = true ∨ moves = true → IsPending .clockChange t) ∧
       (t.clock.t < s.clock.t → IsPending .dayRoll t) ∧
       TimePasses (decide (t.clock.t < s.clock.t)) false u t ∧ OnlyTime u t ∧ t.refTime = s.refTime)

/-- A slot's load outcome (R41, R42), when its commit word's answer arrives, for every slot, 95 among them: valid 0 vacates; a failed
check vacates with the code of the first that fails and the old generation; otherwise the record is taken, quietly: its state is as R28
gives and no cue of the slot is left. A failed read of any word vacates with LOAD_FAULT. What it changes on the wall is marked, of the
class of R90. Then the load goes on with the next slot (after slot 95 it ends: `LoadEndsWithAFullRefresh`). Every other slot stays as it
was. The model's choices: in HOLD the marks of the drops that show the slot are made in ascending row order, log entry 21; the record of
a message in flight is told by its enqueue order, log entry 36. The numbers of the marks in their order of joining are the model's too,
log entry 27. -/
def Obligations.LoadOutcomeIsApplied : Prop :=
  ∀ (data : Word) (err : Bool) (s : State) (addr : Nat) (rest : List ReadReq) (i k : Nat),
    s.resetPin = false → s.mem.port = .ownRead { addr := addr, source := .load } →
    s.mem.reads = { addr := addr, source := .load } :: rest → s.part.reading = .table i k → i < 96 →
    s.slots.length = 96 → s.clock.roll < 1440 → (err = true ∨ k = 5) →
    let x := slotAt s i
    let staging := if err then x.staging else x.staging.set 5 data
    let word := stagedWord staging 5
    let code : Option LastResult :=
      if 1440 ≤ rawMinute staging then some .badTime
      else if rawDay staging = 3 then some .badDay
      else if s.params.p < rawPlatform staging then some .badPlatform
      else if rawDestination staging = 0 then some .badDestination
      else none
    ∃ t, exec (.ownReadComplete data err) s = .next t ∧
      (if err = true then IsVacated .loadFault x.generation i staging s t
       else if flag word 0 = false then IsVacated .taken (field word 8 8) i staging s t
       else match code with
        | some refusal => IsVacated refusal x.generation i staging s t
        | none => TakesRecord true i staging s t ∧
            LosesItsCues (decide ((slotAt t i).state = .expired)) i s t) ∧
      OnlySlots { s with mem := t.mem, part := t.part, cmd := t.cmd } t ∧
      (i < 95 →
        t.part = { s.part with reading := .table (i + 1) 0 } ∧ t.cmd = s.cmd ∧
        t.mem.reads = rest ++ [{ addr := strapBase s.strap + 0x1000 + 32 * (i + 1), source := .load }] ∧
        (ParamsSound s → DisplaySound s →
          MarksJoin (askedMarks (decide ((slotAt t i).state = .vacant) || UrgentChange x.applied (stagedRecord staging)) i s t)
            i s t))

/-- The end of the load (R90, R97, R114, R176, R177), at slot 95's outcome, which `LoadOutcomeIsApplied` gives: RUNNING, LOAD_DONE, and
a RELOAD in execution completes DONE. The marks of the outcome join first, then those of the full refresh: every configured drop,
ROUTINE, in ascending address order, an OFFLINE one discarded, one that is in the pending set already keeping its place; no other mark
joins or leaves. The model's choices: in HOLD the outcome's marks of the drops that show slot 95 join in ascending row order, log entry
21; the numbers of the marks, log entry 27. -/
def Obligations.LoadEndsWithAFullRefresh : Prop :=
  ∀ (data : Word) (err : Bool) (s : State) (addr : Nat) (rest : List ReadReq) (k : Nat),
    s.resetPin = false → s.mem.port = .ownRead { addr := addr, source := .load } →
    s.mem.reads = { addr := addr, source := .load } :: rest → s.part.reading = .table 95 k → (err = true ∨ k = 5) →
    let x := slotAt s 95
    let staging := if err then x.staging else x.staging.set 5 data
    ∃ t, exec (.ownReadComplete data err) s = .next t ∧ t.part = { s.part with state := .running, reading := .idle } ∧
      IsPending .loadDone t ∧ t.mem.reads = rest ∧
      (∀ a < 128, (dropAt s a).role ≠ .none → (dropAt s a).online = true → ∃ m ∈ t.display.marks, m.drop = a) ∧
      (s.slots.length = 96 → ParamsSound s → DisplaySound s →
        let urgent := decide ((slotAt t 95).state = .vacant) || UrgentChange x.applied (stagedRecord staging)
        MarksJoin (askedMarks urgent 95 s t ++ (List.range 128).map fun a => (a, false)) 95 s t) ∧
      (s.cmd.exec = none → t.cmd = s.cmd) ∧
      ∀ words, s.cmd.exec = some words → t.cmd = { s.cmd with
        exec := none, count := s.cmd.count + 1
        response := responseHead words .done .none ::
          [resultOf (bitOf s.part.clamped), resultOf t.rowMap.length, 0, 0, 0, 0] }

/-! ## Commits -/

/-- COMMIT that is not taken (R24, R43, R45), or is refused (R25, R39, R40): beyond the capture of its own write the first
changes nothing; the second sets the last result to the code of the first check that fails, and nothing else. -/
def Obligations.CommitLeavesTheRecord : Prop :=
  ∀ (err : Bool) (s : State) (a : Access) (i : Nat), CommitAt s a i →
    let staging := stagedCommit s a i
    let kept (x : Slot) : State := { s with mem := s.mem.answered (.writeDone err), slots := s.slots.set i x }
    (¬Considered s i →
      exec (.commit err) s = .next (settle s (kept { slotAt s i with staging := staging }))) ∧
    (Considered s i → commitValid (stagedWord staging 5) = true → ¬Passes s.params.p staging →
      exec (.commit err) s = .next (settle s (kept { slotAt s i with
        staging := staging
        lastResult :=
          if 1440 ≤ rawMinute staging then .badTime
          else if rawDay staging = 3 then .badDay
          else if s.params.p < rawPlatform staging then .badPlatform
          else .badDestination })))

/-- COMMIT that is taken (R26 to R30, R39, R40, R64, R75, R115, R117 to R120, R126): the applied record, its delay clamped to 719, the
derived fields, the state by the table of R28, last result, DELAY_CAPPED and generation; its place in the row map; the announced
platform, the highlight and the footnotes, by what a report that is not quiet compares. A quiet commit, and any in LOADING, leaves no
cue of the slot and no other cue changed. No other slot changes. The record of a message in flight is told by its enqueue order, log
entry 36, the model's choice. -/
def Obligations.CommitTakesTheRecord : Prop :=
  ∀ (err : Bool) (s : State) (a : Access) (i : Nat), CommitAt s a i → Considered s i → s.clock.roll < 1440 →
    let staging := stagedCommit s a i
    let quiet := flag (stagedWord staging 5) 1 || decide (s.part.state = .loading)
    flag (stagedWord staging 5) 0 = true → Passes s.params.p staging →
    ∃ t, exec (.commit err) s = .next t ∧ TakesRecord quiet i staging s t ∧
      (quiet = true → LosesItsCues (decide ((slotAt t i).state = .expired)) i s t ∧ t.att = s.att) ∧
      OnlySlots { s with mem := s.mem.answered (.writeDone err) } t

/-- The cues of a COMMIT that is taken and not quiet, in RUNNING (R72, R116, R118 to R124, R126, R136), with room in the queue for the
two it can make: a platform change makes or replaces the slot's PLATFORM_CHANGE cue, or removes it at a reversion, with the window
closed or the record cancelled; a withdrawal removes it; a cancellation makes its own cue and removes the others; a reinstatement
removes that one; the delay rule makes, replaces or removes the DELAY cue; the state reached removes BOARDING and DELAY (its place
among these steps is log entry 15, the model's choice); announce off, or an expiry, removes them all; those that stay are refreshed.
No event is pended. -/
def Obligations.CommitReportSettlesTheCues : Prop :=
  ∀ (err : Bool) (s : State) (a : Access) (i : Nat), CommitAt s a i → s.part.state = .running → s.clock.roll < 1440 →
    s.cues.queue.length + 2 ≤ 16 →
    let staging := stagedCommit s a i
    flag (stagedWord staging 5) 0 = true → flag (stagedWord staging 5) 1 = false → Passes s.params.p staging →
    ∃ t, exec (.commit err) s = .next t ∧ ReportSettles i staging s t ∧ t.att = s.att

/-- COMMIT with valid 0 (R31, R126): the slot is VACANT with nothing but its staging copy and generation, out of the row map, and no cue
and no footnote refers to it. The record of a message in flight is told by its enqueue order, log entry 36, the model's choice. -/
def Obligations.CommitVacatesTheSlot : Prop :=
  ∀ (err : Bool) (s : State) (a : Access) (i : Nat), CommitAt s a i → Considered s i →
    flag (stagedWord (stagedCommit s a i) 5) 0 = false →
    ∃ t, exec (.commit err) s = .next t ∧
      IsVacated .taken (field (stagedWord (stagedCommit s a i) 5) 8 8) i (stagedCommit s a i) s t ∧ t.att = s.att ∧
      OnlySlots { s with mem := s.mem.answered (.writeDone err) } t

/-- What a COMMIT marks, in every wall mode (R89 to R91, R97, R101): the wall rows, then the boards, whose rendered content it changed,
each URGENT where the cause is (a platform change or withdrawal, a cancellation, a vacate) and the slot is concerned in it, else
ROUTINE; in HOLD an URGENT wall row mark goes to the drops that show the slot instead (in ascending row order: log entry 21, the model's
choice). They join the pending set in that order, or raise the mark that is there; nothing else joins or leaves. The numbers of the
marks are the model's, log entry 27. -/
def Obligations.CommitMarksWhatItChanged : Prop :=
  ∀ (err : Bool) (s : State) (a : Access) (i : Nat), CommitAt s a i → ParamsSound s → DisplaySound s →
    let staging := stagedCommit s a i
    let urgent := !flag (stagedWord staging 5) 0 || UrgentChange (slotAt s i).applied (stagedRecord staging)
    ∃ t, exec (.commit err) s = .next t ∧ MarksJoin (askedMarks urgent i s t) i s t

/-- A platform change that is not quiet (R72, R117, R118, R130 to R132), in RUNNING, neither record cancelled, the announce window open,
no cue of the slot waiting and no delay worth announcing: the board of the old platform directs to the new one, whose own no longer
refers to the slot; the highlight starts at the change hold; and a PLATFORM_CHANGE cue from the platform told to the new one is handed
to the queue. It joins where there is room; in a full queue it displaces the youngest of the lowest class below its own (the model's
choices: age by log entry 32; the displaced record is told by its enqueue order, log entry 36), or else is dropped, and CUE_DROPPED is
pended. -/
def Obligations.PlatformChangeIsAnnounced : Prop :=
  ∀ (err : Bool) (s : State) (a : Access) (i : Nat) (old : Record), CommitAt s a i → s.part.state = .running →
    let staging := stagedCommit s a i
    let r := stagedRecord staging
    let ke := (derivedKeys s.clock.roll r).ke
    flag (stagedWord staging 5) 0 = true → flag (stagedWord staging 5) 1 = false → Passes s.params.p staging →
    (slotAt s i).applied = some old → (slotAt s i).state ≠ .vacant → (slotAt s i).state ≠ .expired →
    old.cancelled = false → r.cancelled = false → old.platform ≠ 0 → r.platform ≠ 0 → old.platform ≠ r.platform →
    old.platform ≤ s.params.p → s.params.p ≤ 32 → s.footnotes.length = 32 → s.clock.roll < 1440 →
    windowAt s.params s.clock r ke = true → r.delay < s.params.threshold → told i s ≠ r.platform →
    (∀ c ∈ s.cues.queue, c.slot ≠ some i) →
    let c := madeCue .platformChange i r (told i s) 0 s.params.repeats s.cues.next
    ∃ t, exec (.commit err) s = .next t ∧
      footnoteAt t old.platform = some { slot := i, toPlatform := r.platform, left := s.params.changeHold } ∧
      (∀ n, footnoteAt t r.platform = some n → n.slot ≠ i) ∧ (slotAt t i).highlight = some s.params.changeHold ∧
      (s.cues.queue.length < 16 → t.cues.queue = s.cues.queue ++ [c] ∧ t.cues.next = s.cues.next + 1 ∧ t.att = s.att) ∧
      (s.cues.queue.length = 16 →
        (∀ v ∈ s.cues.queue, v.rank < c.rank →
          (∀ e ∈ s.cues.queue, e ≠ v → v.rank < e.rank ∨
            v.rank = e.rank ∧ (s.cues.next - v.order).toNat < (s.cues.next - e.order).toNat) →
          t.cues.queue = s.cues.queue.filter (fun e => decide (e.order ≠ v.order)) ++ [c] ∧
            t.cues.next = s.cues.next + 1 ∧ t.att = s.att.pend .cueDropped) ∧
        ((∀ e ∈ s.cues.queue, c.rank ≤ e.rank) →
          t.cues.queue = s.cues.queue ∧ t.cues.next = s.cues.next ∧ t.att = s.att.pend .cueDropped))

/-! ## Reset -/

/-- HARD_RESET and HARD_RESET_RELEASE (R1, R15, R21, R23, R38, R62, R94, R95, R114, R129, R150, R151, R164, R165, R168, R170, R173 to
R175, R178): every unit at its value after hard reset, the straps sampled; and at the release the probe timer runs, the part is STARTING
and the first configuration word is requested. That the levels of the two inputs, the queue of commands and the count of free choices
stay, and the data outputs are 0, is the model's choice, log entries 20, 22 and 33; that a HARD_RESET with the pin asserted already does
the same, log entry 3; so are the values of the model's own counters and views, log entries 6, 10, 24, 27 and 31. -/
def Obligations.HardResetSetsEveryUnit : Prop :=
  (∀ (straps : BitVec 4) (s : State), ∃ t, exec (.hardReset straps) s = .next t ∧
    t.resetPin = true ∧ t.strap = straps ∧
    t.mem.port = .idle ∧ t.mem.waiting = none ∧ t.mem.reads = [] ∧
    t.mem.writeBacks = writtenBack.map (fun o => { offset := o, changed := false }) ∧ writtenBack.Pairwise (· < ·) ∧
    t.mem.lastOwn = .writeBack ∧ t.mem.counter = 0 ∧ t.mem.mode = .normal ∧ t.mem.fault = none ∧
    t.mem.answer = none ∧ t.mem.noted = [] ∧
    t.slots.length = 96 ∧
    (∀ i < 96, slotAt t i = {
        staging := [0, 0, 0, 0, 0, 0], applied := none, keys := none, state := .vacant, lastResult := .taken
        capped := false, generation := 0, announced := 0, lastCued := none, highlight := none } ∧
      statusWord t i = 0x007F0000) ∧
    t.rowMap = [] ∧ (∀ p, footnoteAt t p = none) ∧
    t.clock = { t := 0, state := .unset, source := .internal, roll := 180, slew := 0, holdNext := false, loss := none } ∧
    t.params = {
      w := 24, p := 16, firstWall := 0, clockDrop := 48, tickerDrop := 49, boardBase := 64, lead := 3, window := 10
      dwell := 90, hold := 10, changeHold := 300, horizon := 45, threshold := 5, step := 5, starvation := 32
      memLimit := 1024, gap := 4, byteLimit := 20, spacing := 10, busyLimit := 120, repeats := 1, interval := 60
      linkMode := .acknowledged } ∧
    (∀ d < 128, dropAt t d = {
      role := if d < 24 then .wall d else if d = 48 then .clock else if d = 49 then .ticker
        else if 64 ≤ d ∧ d < 80 then .board (d - 63) else .none
      online := true, failures := 0, shown := none }) ∧
    t.display.marks = [] ∧ t.display.probes = [] ∧ t.display.pointer = 127 ∧ t.display.frame = none ∧
    t.display.mode = .run ∧ t.display.step = .none ∧ t.display.probeTimer = none ∧ t.display.joinSeq = 0 ∧
    t.cues.queue = [] ∧ t.cues.next = 0 ∧ t.cues.link = .ready ∧ t.cues.msg = none ∧ t.cues.gapTimer = none ∧
    t.cues.busyTimer = none ∧ t.cues.strobe = false ∧ t.cues.dataOut = 0 ∧
    t.cues.ackIn = s.cues.ackIn ∧ t.cues.busyIn = s.cues.busyIn ∧ t.pending = s.pending ∧ t.freeCount = s.freeCount ∧
    (∀ i < 8, entryAt t i = {
      id := 0, state := .empty, cls := .info, dwell := 0, minutes := 0, phrase := 0, text := [], replacing := false
      result := .none, errAddr := 0 }) ∧
    t.notices.queue = [] ∧ t.notices.fetch = none ∧ t.notices.rotIndex = 7 ∧ t.notices.shown = none ∧
    t.notices.dwellTimer = none ∧ t.notices.orphan = false ∧
    t.cmd.config = [0, 0, 0, 0, 0, 0, 0, 0, 0, 0, 0, 0, 0, 0, 0, 0] ∧
    t.cmd.staging = [0, 0, 0, 0, 0, 0, 0] ∧ t.cmd.exec = none ∧ (∀ k < 8, responseWord t.cmd k = 0) ∧
    t.att = { pending := 0, request := 0, mask := 0 } ∧ 
    t.part = { state := .starting, reading := .idle, clamped := false, configured := false } ∧ t.refTime = 0 ∧
    summaryWord t = 0) ∧
  ∀ s : State, s.resetPin = true → exec .hardResetRelease s = .next (settle s { s with
    resetPin := false
    display := { s.display with probeTimer := some 30 }
    part := { s.part with state := .starting, reading := .config [] }
    mem := { s.mem with reads := s.mem.reads ++ [{ addr := s.strap.toNat * 0x400000 + 0x40, source := .load }] } })

/-! ## Time -/

/-- INTERNAL_REFERENCE_SECOND (R48 to R51, R54): a tick of a RUNNING or FREERUN clock, and of one LOCKED to a minute master but at
second 59; otherwise only the reference is counted. No staging copy and no applied record changes. That the seconds of the reference are
counted in `refTime` is the model's choice, log entry 10. -/
def Obligations.ReferenceSecondIsATick : Prop :=
  ∀ s : State, s.resetPin = false → s.clock.t < 86400 →
    let ticks := s.clock.state = .running ∨ s.clock.state = .freerun ∨
      s.clock.state = .locked ∧ s.clock.source = .masterMinute ∧ s.clock.t % 60 ≠ 59
    (¬ticks → exec .internalReferenceSecond s = .next (settle s { s with refTime := s.refTime + 1 })) ∧
    (ticks → ∃ t, exec .internalReferenceSecond s = .next t ∧ t.clock = ticked s.clock ∧ t.refTime = s.refTime + 1 ∧
      (86400 ≤ s.clock.t + tickSeconds s.clock → IsPending .dayRoll t) ∧
      (∀ i, (slotAt t i).staging = (slotAt s i).staging ∧ (slotAt t i).applied = (slotAt s i).applied) ∧ OnlyTime s t)

/-- MASTER_PULSE and LOSS_TIMER_EXPIRY (R49 to R51, R61): ignored when UNSET and with source INTERNAL; a tick in second mode, a snap to
the nearest minute in minute mode; either locks the clock and restarts the loss timer, and a relock pends CLOCK_CHANGE. The loss timer's
expiry takes the clock to FREERUN, pends CLOCK_CHANGE and marks the clock drop URGENT. That the timer ends when its row comes is the
model's choice, log entry 9. -/
def Obligations.MasterPulsesLockTheClock : Prop :=
  ∀ s : State, s.resetPin = false → s.clock.t < 86400 →
    (s.clock.state = .unset ∨ s.clock.state = .running ∨ s.clock.source = .internal →
      exec .masterPulse s = .next (settle s s)) ∧
    (s.clock.state = .locked ∨ s.clock.state = .freerun →
      (s.clock.source = .masterSecond → ∃ t, exec .masterPulse s = .next t ∧
        t.clock = { ticked s.clock with state := .locked, loss := some 1500 } ∧
        (86400 ≤ s.clock.t + tickSeconds s.clock → IsPending .dayRoll t) ∧
        (s.clock.state = .freerun → IsPending .clockChange t) ∧ OnlyTime s t ∧ t.refTime = s.refTime) ∧
      (s.clock.source = .masterMinute → ∃ t, exec .masterPulse s = .next t ∧
        t.clock = { s.clock with
          t := if 30 ≤ s.clock.t % 60 then (s.clock.t - s.clock.t % 60 + 60) % 86400
            else s.clock.t - s.clock.t % 60
          state := .locked, loss := some 90000 } ∧
        (86370 ≤ s.clock.t → IsPending .dayRoll t) ∧
        (s.clock.state = .freerun → IsPending .clockChange t) ∧ OnlyTime s t ∧ t.refTime = s.refTime)) ∧
    (s.clock.loss.isSome = true → exec .lossTimerExpiry s =
      .next (settle s (joinMark (markFor s.params.clockDrop true none) { s with
        clock := { s.clock with state := .freerun, loss := none }, att := s.att.pend .clockChange })))

/-- FOOTNOTE_EXPIRY, HIGHLIGHT_EXPIRY, NOTICE_EXPIRY and SLEW_COMPLETE (R54, R81, R82, R162): each is the tick that brings it, a time
advance whose seconds or minutes passed are not less than what remains (log entry 8). The footnote is none, the highlight stopped, the
notice EMPTY, or FETCHING if it was replacing, the remainder 0. That the text of an expired notice is empty is log entry 17. Both are
the model's choice. -/
def Obligations.TickEndsWhatRunsOut : Prop :=
  ∀ (cause : TickCause) (s : State), s.resetPin = false →
    (∀ adv, pendingAdvance cause s = some adv →
      (∀ board n, 1 ≤ board → footnoteAt s board = some n → n.left ≤ adv.seconds →
        ∃ t, exec (.footnoteExpiry board cause) s = .next t ∧ exec (tickRow cause) s = .next t ∧
          footnoteAt t board = none) ∧
      (∀ i left, (slotAt s i).highlight = some left → left ≤ adv.seconds →
        ∃ t, exec (.highlightExpiry i cause) s = .next t ∧ exec (tickRow cause) s = .next t ∧
          (slotAt t i).highlight = none) ∧
      (∀ i, (entryAt s i).state = .active → (entryAt s i).minutes ≠ 0 → adv.minuteEvent = true →
        (entryAt s i).minutes ≤ adv.minutes →
        ∃ t, exec (.noticeExpiry i cause) s = .next t ∧ exec (tickRow cause) s = .next t ∧
          (entryAt t i).state = (if (entryAt s i).replacing then .fetching else .empty) ∧
          (entryAt t i).result = .expired ∧ (entryAt t i).text = [])) ∧
    ∀ c roll, s.clock.event cause = some (c, roll) → s.clock.slew ≠ 0 → c.slew = 0 →
      ∃ t, exec (.slewComplete cause) s = .next t ∧ exec (tickRow cause) s = .next t ∧ t.clock.slew = 0

/-- What a tick or a pulse makes of the departures (R32 to R35, R52, R53, R61, R71, R76, R81, R82, R92, R124, R126, R162, R163), for a
clock that slews or not: the day roll, the second event, the minute event and the marks, by `TimePasses`; a tick that is withheld for a
negative slew (R54), or a snap that finds the minute, moves nothing. With a tick of a RUNNING, FREERUN or LOCKED clock the roll is T's
wrap at 86400; with a snap, a snap forward out of the last minute. A message in flight goes on, its record REMOVED and its outcome to be
ignored where its slot expires (R115, R126, R136). The model's choices: the order in which several slots report is free, log entry 12;
the rotation advances once where several notices expire together, log entry 14; the fields of an expired notice, log entry 17. -/
def Obligations.SecondEventMovesSlots : Prop :=
  ∀ s : State, s.resetPin = false → s.clock.t < 86400 →
    let rolls := decide (86400 ≤ s.clock.t + tickSeconds s.clock)
    let free := s.clock.state = .locked ∨ s.clock.state = .freerun
    (s.clock.state = .running ∨ s.clock.state = .freerun ∨
      s.clock.state = .locked ∧ s.clock.source = .masterMinute ∧ s.clock.t % 60 ≠ 59 →
      ∃ t, exec .internalReferenceSecond s = .next t ∧ t.clock = ticked s.clock ∧ t.params = s.params ∧
        TimePasses rolls false s t) ∧
    (free → s.clock.source = .masterSecond →
      ∃ t, exec .masterPulse s = .next t ∧ t.clock.t = (ticked s.clock).t ∧ t.params = s.params ∧
        TimePasses rolls false s t) ∧
    (free → s.clock.source = .masterMinute →
      ∃ t, exec .masterPulse s = .next t ∧ t.params = s.params ∧
        t.clock.t = (if 30 ≤ s.clock.t % 60 then (s.clock.t - s.clock.t % 60 + 60) % 86400
          else s.clock.t - s.clock.t % 60) ∧
        TimePasses (decide (86370 ≤ s.clock.t)) false s t)

/-! ## Commands -/

/-- SET CLOCK (R55 to R57): refused for a value out of range; sets an UNSET clock; slews a correction of 120 s or less unless forced or
in minute mode; else steps, with a day roll where it crosses 86400, refused where it would cross 0. Setting and stepping bring what
`TimePasses` says (R52, R53), and a step marks the clock word, also within a minute. That the slew phase restarts with the remainder
also where R55 and R56 clear it, at a set, a step and a correction of 0, is the model's choice, log entry 34; so are, in `TimePasses`,
that the rotation advances once where several notices expire together, log entry 14, the fields of an expired notice, log entry 17, and
the free order in which several slots report, log entry 12. The command's own events are pended with the rest. -/
def Obligations.SetClockSetsSlewsOrSteps : Prop :=
  ∀ (err : Bool) (s : State) (a : Access), TakenAt s a 1 → s.clock.t < 86400 →
    let w := commandWord s.cmd.staging 1
    let hh := field w 16 8
    let mm := field w 8 8
    let ss := field w 0 8
    let target : Int := ((3600 * hh + 60 * mm + ss : Nat) - 60 * s.clock.roll : Int) % 86400
    let d : Int := (target - s.clock.t + 43200) % 86400 - 43200
    let sum : Int := s.clock.t + d
    let steps := s.clock.source = .masterMinute ∨ flag w 24 = true ∨ 120 < d.natAbs
    let events := takenEvents s ++ [.commandDone]
    ∃ t, exec (.setClock err) s = .next t ∧
      (23 < hh ∨ 59 < mm ∨ 59 < ss → RefusedAt err .badParameter s t) ∧
      (hh ≤ 23 → mm ≤ 59 → ss ≤ 59 →
        (s.clock.state = .unset → Answered err .done .none [1, 0, 0, 0, 0, 0] s t ∧
          (∀ e ∈ takenEvents s ++ [.clockChange, .commandDone], IsPending e t) ∧
          t.clock = { s.clock with
            t := target.toNat, state := if s.clock.source = .internal then .running else .freerun, slew := 0
            holdNext := false } ∧
          TimePasses false true s t ∧
          OnlyTime { s with mem := t.mem, cmd := t.cmd } t) ∧
        (s.clock.state ≠ .unset → ¬steps →
          Answered err .done .none [if d = 0 then 0 else 2, signedWord d, 0, 0, 0, 0] s t ∧
          t.att = s.att.after events ∧ OnlyCommand { s with clock := { s.clock with slew := d, holdNext := false } } t) ∧
        (s.clock.state ≠ .unset → steps → d = 0 → Answered err .done .none [0, 0, 0, 0, 0, 0] s t ∧
          t.att = s.att.after events ∧ OnlyCommand { s with clock := { s.clock with slew := 0, holdNext := false } } t) ∧
        (s.clock.state ≠ .unset → steps → d ≠ 0 → sum < 0 →
          Answered err .refused .crossesRoll [0, signedWord d, 0, 0, 0, 0] s t ∧ t.att = s.att.after events ∧
          OnlyCommand s t) ∧
        (s.clock.state ≠ .unset → steps → d ≠ 0 → 0 ≤ sum →
          Answered err .done .none [3, signedWord d, if 86400 ≤ sum then 1 else 0, 0, 0, 0] s t ∧
          (∀ e ∈ takenEvents s ++ [.clockChange, .commandDone], IsPending e t) ∧ (86400 ≤ sum → IsPending .dayRoll t) ∧
          t.clock = { s.clock with t := (sum % 86400).toNat, slew := 0, holdNext := false } ∧
          TimePasses (decide (86400 ≤ sum)) false s t ∧ (∃ e ∈ t.mem.writeBacks, e.offset = 0x80) ∧
          OnlyTime { s with mem := t.mem, cmd := t.cmd } t))

/-- SET SOURCE (R58): refused for another code; the source in force changes nothing; else the source is replaced, the slew
cleared, the loss timer stopped, the clock state follows, CLOCK_CHANGE is pended, and the clock drop is marked if the state
changed. The response carries the previous source. That the slew phase restarts with the remainder cleared is the model's choice, log
entry 34. -/
def Obligations.SetSourceReplacesTheSource : Prop :=
  ∀ (err : Bool) (s : State) (a : Access), TakenAt s a 2 →
    let code := field (commandWord s.cmd.staging 1) 0 8
    let previous : Nat := match s.clock.source with
      | .internal => 0
      | .masterSecond => 1
      | .masterMinute => 2
    let results : List Word := [resultOf previous, 0, 0, 0, 0, 0]
    let c : Clock := { s.clock with
      source := sourceOf code, slew := 0, holdNext := false, loss := none
      state := if s.clock.state = .unset then .unset else if code = 0 then .running else .freerun }
    ∃ t, exec (.setSource err) s = .next t ∧
      (2 < code → RefusedAt err .badParameter s t) ∧
      (code ≤ 2 → sourceOf code = s.clock.source → Answered err .done .none results s t ∧
        t.att = s.att.after (takenEvents s ++ [.commandDone]) ∧ OnlyCommand s t) ∧
      (code ≤ 2 → sourceOf code ≠ s.clock.source → Answered err .done .none results s t ∧
        t.att = s.att.after (takenEvents s ++ [.clockChange, .commandDone]) ∧
        OnlyCommand { s with
          clock := c
          display := if c.state = s.clock.state then s.display
            else (joinMark (markFor s.params.clockDrop true none) s).display } t)

/-- SET WALL MODE (R97, R99, R104): refused for another code; else the mode is replaced and the response carries the previous one.
Leaving HOLD marks, ROUTINE and in ascending row order, each wall row whose shown slot differs from its position slot, a drop that is
OFFLINE or holds no role apart; no other mark joins, and none leaves. The numbers of the marks are the model's choice, log entry 27. -/
def Obligations.SetWallModeReplacesTheMode : Prop :=
  ∀ (err : Bool) (s : State) (a : Access), TakenAt s a 3 →
    let code := field (commandWord s.cmd.staging 1) 0 8
    let mode : WallMode := if code = 0 then .run else if code = 1 then .hold else .freeze
    let previous : Nat := match s.display.mode with
      | .run => 0
      | .hold => 1
      | .freeze => 2
    ∃ t, exec (.setWallMode err) s = .next t ∧
      (2 < code → RefusedAt err .badParameter s t) ∧
      (code ≤ 2 → Answered err .done .none [resultOf previous, 0, 0, 0, 0, 0] s t ∧
        t.att = s.att.after (takenEvents s ++ [.commandDone]) ∧
        OnlyCommand { s with display := { s.display with
          mode := mode, marks := t.display.marks, joinSeq := t.display.joinSeq } } t ∧
        (s.display.mode ≠ .hold ∨ mode = .hold →
          t.display.marks = s.display.marks ∧ t.display.joinSeq = s.display.joinSeq) ∧
        (s.display.mode = .hold → mode ≠ .hold →
          MarksJoin (((List.range s.params.w).filter fun row =>
            decide ((dropAt s (s.params.firstWall + row)).shown.map (·.1) ≠ s.rowMap[row]?)).map fun row =>
              (s.params.firstWall + row, false)) 0 s t))

/-- STEP FRAME (R105): refused in RUN; else it waits for a busy link, or takes the oldest mark of the highest class present
and sends its frame, or completes with none to send. -/
def Obligations.StepFrameSendsOneFrame : Prop :=
  ∀ (err : Bool) (s : State) (a : Access), TakenAt s a 4 →
    let taken : State := { s with
      mem := s.mem.answered (.writeDone err), cmd := { s.cmd with exec := some s.cmd.staging }
      att := s.att.after (takenEvents s) }
    (s.display.mode = .run → ∃ t, exec (.stepFrame err) s = .next t ∧ RefusedAt err .wrongState s t) ∧
    (s.display.mode ≠ .run → s.display.frame ≠ none →
      exec (.stepFrame err) s = .next (settle s { taken with display := { s.display with step := .waiting } })) ∧
    (s.display.mode ≠ .run → s.display.frame = none →
      (s.display.marks = [] → ∃ t, exec (.stepFrame err) s = .next t ∧
        Answered err .done .none [255, 0, 0, 0, 0, 0] s t ∧ t.att = s.att.after (takenEvents s ++ [.commandDone]) ∧
        OnlyCommand { s with display := { s.display with step := .none } } t) ∧
      ∀ m, (s.display.marks.find? (·.urgent)).or s.display.marks.head? = some m →
        exec (.stepFrame err) s = .next (settle s { taken with display := { s.display with
          step := .sending, marks := s.display.marks.filter (·.drop ≠ m.drop), frame := some (frameOf s m true) } }))

/-- POST NOTICE (R153 to R156): refused at the first check that fails; else the entry is reserved, or marked replacing, its
request joins the fetch queue, and begins at once on an idle unit: with the read of its chain address, or, beyond the memory
limit, with its end. -/
def Obligations.PostNoticeReservesAndFetches : Prop :=
  ∀ (err : Bool) (s : State) (a : Access), TakenAt s a 5 → s.notices.entries.length = 8 →
    let w1 := commandWord s.cmd.staging 1
    let w2 := commandWord s.cmd.staging 2
    let id := field w1 0 8
    let chain := (commandWord s.cmd.staging 3).toNat
    let bad := id = 0 ∨ field w1 8 2 = 3 ∨ ¬Within 2 (field w1 16 8) 60 ∨ 1440 < field w2 0 16 ∨
      4095 < field w2 16 16 ∨ chain = 0 ∨ chain % 4 ≠ 0
    let busy := ∃ i < 8, (entryAt s i).id = id ∧
      ((entryAt s i).state = .fetching ∨ (entryAt s i).state = .active ∧ (entryAt s i).replacing = true)
    let full := ∀ i < 8, (entryAt s i).state ≠ .empty ∧ (entryAt s i).id ≠ id
    NoticeTableSound s →
    (bad → ∃ t, exec (.postNotice err) s = .next t ∧ RefusedAt err .badParameter s t) ∧
    (¬bad → busy → ∃ t, exec (.postNotice err) s = .next t ∧ RefusedAt err .wrongState s t) ∧
    (¬bad → ¬busy → s.notices.queue.length = 2 →
      ∃ t, exec (.postNotice err) s = .next t ∧ RefusedAt err .queueFull s t) ∧
    (¬bad → ¬busy → s.notices.queue.length < 2 → full →
      ∃ t, exec (.postNotice err) s = .next t ∧ RefusedAt err .tableFull s t) ∧
    ∀ i < 8, ¬bad → ¬busy → s.notices.queue.length < 2 →
      ((entryAt s i).state = .active ∧ (entryAt s i).id = id ∨
        (∀ j < 8, (entryAt s j).state = .empty ∨ (entryAt s j).id ≠ id) ∧ (entryAt s i).state = .empty ∧
          ∀ j < i, (entryAt s j).state ≠ .empty) →
      let replaces := decide ((entryAt s i).state = .active)
      let e : Entry := if replaces then { entryAt s i with replacing := true, result := .accepted }
        else { id := id, state := .fetching, cls := .info, dwell := 0, minutes := 0, phrase := 0, text := []
               replacing := false, result := .accepted, errAddr := 0 }
      let r : FetchReq := {
        entry := i, id := id, cls := noticeClassOf (field w1 8 2), dwell := field w1 16 8, lifetime := field w2 0 16
        phrase := field w2 16 16, chain := chain }
      let idle := s.notices.queue = [] ∧ s.notices.fetch = none ∧ s.notices.orphan = false
      let results : List Word := [resultOf i, if replaces then 1 else 0, 0, 0, 0, 0]
      ∃ t, exec (.postNotice err) s = .next t ∧
        (s.notices.fetch.isSome = true ∨ s.notices.orphan = true → Answered err .done .none results s t ∧
          OnlyCommand { s with notices := { s.notices with
            entries := s.notices.entries.set i e, queue := s.notices.queue ++ [r] } } t) ∧
        (idle → chain < s.params.memLimit * 0x10000 →
          Answered err .done .none results
            { s with mem := { s.mem with reads := s.mem.reads ++ [{ addr := chain, source := .fetch }] } } t ∧
          OnlyCommand { s with notices := { s.notices with
            entries := s.notices.entries.set i e, queue := [r], fetch := some (Fetch.begin chain) } } t) ∧
        (idle → s.params.memLimit * 0x10000 ≤ chain → Answered err .done .none results s t ∧ IsPending .noticeDone t ∧
          OnlyCommand { s with notices := { s.notices with entries := s.notices.entries.set i { e with
            state := if replaces then .active else .empty, replacing := false, result := .outOfRange
            errAddr := chain } } } t)

/-- WITHDRAW NOTICE (R161, R163): refused where no FETCHING or ACTIVE entry has the id; else the entry is EMPTY with result
WITHDRAWN, its request leaves the fetch queue, a fetch in progress is abandoned with its read still to be answered, and
the rotation advances if it showed the entry. That class, dwell, minutes, phrase and text of the emptied entry are as after hard reset
is the model's choice, log entry 17. -/
def Obligations.WithdrawNoticeEmptiesTheEntry : Prop :=
  ∀ (err : Bool) (s : State) (a : Access), TakenAt s a 6 → NoticeTableSound s →
    let id := field (commandWord s.cmd.staging 1) 0 8
    ((∀ i < 8, (entryAt s i).state = .empty ∨ (entryAt s i).id ≠ id) →
      ∃ t, exec (.withdrawNotice err) s = .next t ∧ RefusedAt err .notFound s t) ∧
    ∀ i < 8, (entryAt s i).state ≠ .empty → (entryAt s i).id = id →
      let abandoned := s.notices.fetch.isSome && decide (s.notices.queue.head?.map (·.entry) = some i)
      let queued := s.notices.queue.any fun r => decide (r.entry = i)
      let code : Word := if abandoned then 2 else if queued then 1 else 0
      let gone : NoticeUnit := { s.notices with
        entries := s.notices.entries.set i {
          id := id, state := .empty, cls := .info, dwell := 0, minutes := 0, phrase := 0, text := []
          replacing := false, result := .withdrawn, errAddr := 0 }
        queue := s.notices.queue.filter (·.entry ≠ i)
        fetch := if abandoned then none else s.notices.fetch
        orphan := abandoned || s.notices.orphan }
      let u : State := { s with notices := gone }
      ∃ t, exec (.withdrawNotice err) s = .next t ∧ Answered err .done .none [resultOf i, code, 0, 0, 0, 0] s t ∧
        t.att = s.att.after (takenEvents s ++ [.commandDone]) ∧
        (s.notices.shown ≠ some i → RotationSound s → OnlyCommand u t) ∧
        (s.notices.shown = some i →
          (∀ n, Selects u n → OnlyCommand (showing n u) t) ∧
          ((∀ n < 8, (entryAt u n).state ≠ .active) →
            OnlyCommand (joinMark (markFor s.params.tickerDrop false none)
              { s with notices := { gone with shown := none, dwellTimer := none } }) t))

/-- TICKER_DWELL_EXPIRY (R163): the rotation advances to the ACTIVE entry with the lowest index above its own, else the lowest, and
marks the ticker drop, URGENT for a DISRUPTION; with none ACTIVE it shows none and its timer stops. That the timer ends when its row
comes is the model's choice, log entry 9. -/
def Obligations.DwellExpiryAdvancesTheRotation : Prop :=
  ∀ s : State, s.resetPin = false → s.notices.dwellTimer.isSome = true →
    (∀ n, Selects s n → exec .tickerDwellExpiry s = .next (settle s (showing n s))) ∧
    ((∀ n < 8, (entryAt s n).state ≠ .active) →
      exec .tickerDwellExpiry s = .next (settle s (joinMark (markFor s.params.tickerDrop false none)
        { s with notices := { s.notices with shown := none, dwellTimer := none } })))

/-- ISSUE CUE (R131, R132, R140): refused for a parameter; else the cue joins with the next enqueue order, in a full queue by
displacing the youngest record of the lowest class if that is below its own, and else it is dropped. The model's choices: a phrase
above 4095 is refused, log entry 16; a cue that displaces nothing answers 0 in word 4, log entry 37; the age of a record is the distance
of its order from the next, log entry 32, and the order tells records apart, log entry 36. -/
def Obligations.IssueCueJoinsDisplacesOrDrops : Prop :=
  ∀ (err : Bool) (s : State) (a : Access), TakenAt s a 7 →
    let w := commandWord s.cmd.staging 1
    let bad := field w 0 8 ≠ 6 ∧ field w 0 8 ≠ 7 ∨ 3 < field w 8 8 ∨ field w 16 16 = 0 ∨ 4095 < field w 16 16
    let c : Cue := { phraseCue (if field w 0 8 = 6 then .general else .emergency) (field w 16 16) (field w 8 8) with
      order := s.cues.next }
    ∃ t, exec (.issueCue err) s = .next t ∧
      (bad → RefusedAt err .badParameter s t) ∧
      (¬bad → s.cues.queue.length < 16 →
        Answered err .done .none [s.cues.next, resultOf (s.cues.queue.length + 1), 0, 0, 0, 0] s t ∧
        t.att = s.att.after (takenEvents s ++ [.commandDone]) ∧
        OnlyCommand { s with cues := { s.cues with queue := s.cues.queue ++ [c], next := s.cues.next + 1 } } t) ∧
      (¬bad → s.cues.queue.length = 16 →
        (∀ v ∈ s.cues.queue, v.rank < c.rank →
          (∀ e ∈ s.cues.queue, e ≠ v → v.rank < e.rank ∨
            v.rank = e.rank ∧ ageOf s.cues.next v.order < ageOf s.cues.next e.order) →
          Answered err .done .none [s.cues.next, resultOf t.cues.queue.length,
            (match v.kind with
              | .platformChange => 1
              | .cancellation => 2
              | .delay => 3
              | .boarding => 4
              | .notice => 5
              | .general => 6
              | .emergency => 7), resultOf (v.slot.getD 255), 0, 0] s t ∧
          t.att = s.att.after (takenEvents s ++ [.cueDropped, .commandDone]) ∧
          OnlyCommand { s with cues := { s.cues with
            queue := s.cues.queue.filter (·.order ≠ v.order) ++ [c], next := s.cues.next + 1
            msg := s.cues.msg.map fun m =>
              if m.cue.order = v.order then { m with condition := .removed } else m } } t) ∧
        ((∀ e ∈ s.cues.queue, c.rank ≤ e.rank) →
          Answered err .refused .queueFull [0, 16, 0, 0, 0, 0] s t ∧
          t.att = s.att.after (takenEvents s ++ [.cueDropped, .commandDone]) ∧ OnlyCommand s t))

/-- CLEAR CUES (R142): every record whose class is in the set leaves, one in flight with its message going on; the response carries how
many and the depth after; no event but the command's own. The record of a message in flight is told by its enqueue order, log entry 36,
the model's choice. -/
def Obligations.ClearCuesRemovesTheClasses : Prop :=
  ∀ (err : Bool) (s : State) (a : Access), TakenAt s a 8 →
    let inSet (c : Cue) : Bool := flag (commandWord s.cmd.staging 1)
      (match c.kind with
        | .delay | .boarding | .notice | .general => 0
        | .platformChange | .cancellation => 1
        | .emergency => 2)
    let left := s.cues.queue.filter fun c => !inSet c
    ∃ t, exec (.clearCues err) s = .next t ∧
      Answered err .done .none
        [resultOf (s.cues.queue.length - left.length), resultOf left.length, 0, 0, 0, 0] s t ∧
      t.att = s.att.after (takenEvents s ++ [.commandDone]) ∧
      OnlyCommand { s with cues := { s.cues with
        queue := left
        msg := s.cues.msg.map fun m =>
          if s.cues.queue.any (fun c => inSet c && decide (c.order = m.cue.order)) then { m with condition := .removed }
          else m } } t

/-- PROBE DROPS and PROBE_TIMER_EXPIRY (R111, R112): the command makes a request for every configured drop that is OFFLINE, those not
yet in the list joining in ascending address order; the timer selects the lowest OFFLINE address above the pointer, else the lowest, and
moves the pointer to it; with no drop OFFLINE neither changes the list. The model's choices: the timer ends when its row comes, log
entry 9; the numbers of the requests in their order of joining, log entry 27. -/
def Obligations.ProbesAreRequested : Prop :=
  (∀ (err : Bool) (s : State) (a : Access), TakenAt s a 9 →
    let off := (List.range 128).filter fun d => decide ((dropAt s d).role ≠ .none) && !(dropAt s d).online
    let new := off.filter fun d => !s.display.probes.any fun p => decide (p.drop = d)
    ∃ t, exec (.probeDrops err) s = .next t ∧
      Answered err .done .none [resultOf off.length, resultOf new.length, 0, 0, 0, 0] s t ∧
      t.att = s.att.after (takenEvents s ++ [.commandDone]) ∧
      OnlyCommand { s with display := { s.display with
        probes := s.display.probes ++ new.zipIdx.map fun e => { drop := e.1, seq := s.display.joinSeq + e.2 }
        joinSeq := s.display.joinSeq + new.length } } t) ∧
  ∀ s : State, s.resetPin = false → s.display.probeTimer.isSome = true →
    let offline (d : Nat) := d < 128 ∧ (dropAt s d).role ≠ .none ∧ (dropAt s d).online = false
    ((∀ d, ¬offline d) → exec .probeTimerExpiry s = .next (settle s s)) ∧
    ∀ d, offline d → (s.display.pointer < d → ∀ b, offline b → s.display.pointer < b → d ≤ b) →
      (d ≤ s.display.pointer → ∀ b, offline b → b ≤ s.display.pointer ∧ d ≤ b) →
      let asked : Display :=
        if s.display.probes.any (fun p => decide (p.drop = d)) then { s.display with pointer := d }
        else { s.display with
          pointer := d, probes := s.display.probes ++ [{ drop := d, seq := s.display.joinSeq }]
          joinSeq := s.display.joinSeq + 1 }
      exec .probeTimerExpiry s = .next (settle s { s with display := asked })

/-- QUERY (R169), in every part state: the OFFLINE set, the row map length and pending frame count, the queue depth and the
entry states, all of one instant; nothing else changes. -/
def Obligations.QueryAnswersInEveryState : Prop :=
  ∀ (err : Bool) (s : State) (a : Access), TriggerAt s a 11 → s.cmd.exec = none →
    s.rowMap.length ≤ 96 → s.display.marks.length ≤ 128 → s.cues.queue.length ≤ 16 →
    ∃ (t : State) (results : List Word), exec (.query err) s = .next t ∧ results.length = 6 ∧
      Answered err .done .none results s t ∧ t.att = s.att.after (takenEvents s ++ [.commandDone]) ∧ OnlyCommand s t ∧
      (∀ d < 128, (results.getD (d / 32) 0).getLsbD (d % 32) = !(dropAt s d).online) ∧
      field (results.getD 4 0) 0 8 = s.rowMap.length ∧ field (results.getD 4 0) 16 8 = s.display.marks.length ∧
      field (results.getD 5 0) 0 8 = s.cues.queue.length ∧
      ∀ i < 8, field (results.getD 5 0) (16 + 2 * i) 2 = match (entryAt s i).state with
        | .empty => 0
        | .fetching => 1
        | .active => 2

/-- RELOAD, UNKNOWN_COMMAND, and every command out of turn (R166, R167, R177): RELOAD in RUNNING or HALTED puts the part into
STARTING and requests the first configuration word; a code that names no command is refused in every part state; a command
other than RELOAD and QUERY is refused outside RUNNING; a trigger during an execution pends MAILBOX_OVERRUN and changes
nothing else. -/
def Obligations.CommandsOutOfTurnAreAnswered : Prop :=
  ∀ (err : Bool) (s : State) (a : Access),
    let rows : List (Nat × Instr) :=
      [(1, .setClock err), (2, .setSource err), (3, .setWallMode err), (4, .stepFrame err), (5, .postNotice err),
        (6, .withdrawNotice err), (7, .issueCue err), (8, .clearCues err), (9, .probeDrops err)]
    (TriggerAt s a 10 → s.cmd.exec = none →
      (s.part.state = .running ∨ s.part.state = .halted → exec (.reload err) s = .next (settle s { s with
        mem := { s.mem.answered (.writeDone err) with
          reads := s.mem.reads ++ [{ addr := s.strap.toNat * 0x400000 + 0x40, source := .load }] }
        cmd := { s.cmd with exec := some s.cmd.staging }, att := s.att.after (takenEvents s)
        part := { s.part with state := .starting, reading := .config [] } })) ∧
      (s.part.state = .starting ∨ s.part.state = .loading →
        ∃ t, exec (.reload err) s = .next t ∧ RefusedAt err .wrongState s t)) ∧
    (WriteAt s a .trigger → a.lanes ≠ 0 → s.cmd.exec = none →
      commandCode s.cmd.staging = 0 ∨ 11 < commandCode s.cmd.staging →
      ∃ t, exec (.unknownCommand err) s = .next t ∧ RefusedAt err .unknownCommand s t) ∧
    (∀ e ∈ rows, TriggerAt s a e.1 → s.cmd.exec = none → s.part.state ≠ .running →
      ∃ t, exec e.2 s = .next t ∧ RefusedAt err .wrongState s t) ∧
    ∀ words, s.cmd.exec = some words →
      let overrun := Host.Outcome.next (settle s { s with
        mem := s.mem.answered (.writeDone err), att := s.att.pend .mailboxOverrun })
      (∀ e ∈ rows ++ [(10, .reload err), (11, .query err)], TriggerAt s a e.1 → exec e.2 s = overrun) ∧
      (WriteAt s a .trigger → a.lanes ≠ 0 → commandCode s.cmd.staging = 0 ∨ 11 < commandCode s.cmd.staging →
        exec (.unknownCommand err) s = overrun)

/-! ## Display link -/

/-- FRAME_SEND and FRAME_TRANSMITTED (R98, R100, R103, R105 to R107, R113), on an idle link. With a STEP FRAME waiting, its frame: the
oldest mark of the highest class, whatever the mode and before any probe; with no mark the command completes, drop none. Else the older
of the oldest URGENT mark and the oldest probe request, no mark in FREEZE; else, in RUN, the oldest ROUTINE mark. What is chosen leaves
its collection and its frame is in flight; with nothing to choose nothing happens. After the last byte the reply window is open. The
model's choices: FRAME_SEND with nothing to choose changes nothing, log entry 1; the choice of a frame is a command, log entry 11; marks
and requests are compared in age by their numbers, log entry 27. -/
def Obligations.FrameSendFollowsTheMode : Prop :=
  ∀ s : State, s.resetPin = false →
    let urgent := s.display.marks.find? fun m => m.urgent
    let routine := s.display.marks.find? fun m => !m.urgent
    let sent (m : Mark) (forStep : Bool) : Display := { s.display with
      marks := s.display.marks.filter (·.drop ≠ m.drop), frame := some (frameOf s m forStep) }
    (s.display.frame = none → s.display.step ≠ .waiting →
      let probe := s.display.probes.head?
      (∀ m, s.display.mode ≠ .freeze → urgent = some m → (∀ p, probe = some p → m.seq < p.seq) →
        exec .frameSend s = .next (settle s { s with display := sent m false })) ∧
      (∀ p, probe = some p → (s.display.mode = .freeze ∨ ∀ m, urgent = some m → p.seq ≤ m.seq) →
        exec .frameSend s = .next (settle s { s with display := { s.display with
          probes := s.display.probes.filter (·.drop ≠ p.drop), frame := some (probeFrame p.drop) } })) ∧
      (∀ m, s.display.mode = .run → urgent = none → probe = none → routine = some m →
        exec .frameSend s = .next (settle s { s with display := sent m false })) ∧
      (probe = none → s.display.mode = .freeze ∨ urgent = none ∧ (s.display.mode = .hold ∨ routine = none) →
        exec .frameSend s = .next s)) ∧
    (s.display.frame = none → s.display.step = .waiting →
      (∀ m, urgent.or routine = some m →
        exec .frameSend s = .next (settle s { s with display := { sent m true with step := .sending } })) ∧
      (s.display.marks = [] → ∀ words, s.cmd.exec = some words →
        exec .frameSend s = .next (settle s { s with
          display := { s.display with step := .none }
          cmd := { s.cmd with
            exec := none, count := s.cmd.count + 1
            response := responseHead words .done .none :: [255, 0, 0, 0, 0, 0] }
          att := s.att.pend .commandDone }))) ∧
    ∀ f, s.display.frame = some f → f.window = false →
      exec .frameTransmitted s = .next (settle s { s with display := { s.display with
        frame := some { f with window := true } } })

/-- What a frame is rendered from (R68, R79, R80, R85 to R88, R102, R106). The content of a slot: its applied record, with the
scheduled minute or, above the threshold, the expected one, the added delay below it, the countdown within the window, the remark, the
first that applies, highlight and flash. A wall row shows its position slot, in HOLD its shown slot if that is in the row map; a board
the first entry of the row map with its platform, and its footnote; the clock drop the civil time and the clock state; the ticker the
notice shown; nothing to show is a BLANK frame. -/
def Obligations.FramesShowTheirRole : Prop :=
  ∀ s : State,
    (∀ i r k, (slotAt s i).applied = some r → (slotAt s i).keys = some k →
      let x := slotAt s i
      let late := decide (s.params.threshold ≤ r.delay)
      let expected := decide (x.state ≠ .cancelled ∧ 0 < r.delay) && late
      let minute := if expected then (r.minute + r.delay) % 1440 else r.minute
      let c : Int := k.ke - (s.clock.t / 60 : Nat)
      slotContent s i = some {
        operator := r.operator, service := r.service, destination := r.destination, via := r.via
        hh := minute / 60, mm := minute % 60, expected := expected
        added := if x.state = .cancelled ∨ late = true then 0 else r.delay
        countdown :=
          if s.clock.state ≠ .unset ∧ (x.state = .scheduled ∨ x.state = .boarding) ∧ 1 ≤ c ∧ c ≤ s.params.window then
            c.toNat else 0
        platform := r.platform
        remark :=
          if x.state = .cancelled then .cancelled
          else if x.state = .departing then .departing
          else if x.highlight ≠ none then .changed
          else if x.state = .boarding then .boarding
          else if late then .delayed r.delay
          else .none
        remarkCode := r.remark, formation := r.formation, highlight := x.highlight.isSome
        flash := decide (x.state = .departing) }) ∧
    ∀ (m : Mark) (forStep : Bool),
      let frame (kind : FrameKind) (items : List Byte) (shown : Option (Nat × Nat)) : Frame := {
        drop := m.drop, kind := kind, shown := shown, urgent := m.urgent, cause := m.cause, forStep := forStep
        discard := false, bytes := frameBytes m.drop kind items, window := false }
      let blank := frame .blank [] none
      let ofSlot (i : Option Nat) (y : Frame) : Prop :=
        match i with
        | none => y = blank
        | some i => ∀ c, slotContent s i = some c → y = frame .row (rowItems c) (some (i, c.platform))
      let y := frameOf s m forStep
      (∀ row, (dropAt s m.drop).role = .wall row →
        (s.display.mode ≠ .hold → ofSlot s.rowMap[row]? y) ∧
        (s.display.mode = .hold → RowMapSound s →
          ofSlot (((dropAt s m.drop).shown.map (·.1)).filter fun i => s.rowMap.contains i) y)) ∧
      (∀ p, 1 ≤ p → (dropAt s m.drop).role = .board p →
        y = frame .board (boardItems
          ((s.rowMap.find? fun i => (slotAt s i).applied.any fun r => decide (r.platform = p)).bind (slotContent s))
          ((footnoteAt s p).map fun n => (n.slot, ((slotAt s n.slot).applied.map (·.service)).getD 0, n.toPlatform))) none) ∧
      ((dropAt s m.drop).role = .clock →
        let civil := (s.clock.t + 60 * s.clock.roll) % 86400
        y = frame .clock [byteOf (civil / 3600), byteOf (civil / 60 % 60), byteOf (match s.clock.state with
          | .unset => 0
          | .running => 1
          | .locked => 2
          | .freerun => 3)] none) ∧
      ((dropAt s m.drop).role = .ticker →
        y = match s.notices.shown with
          | some n => frame .ticker ([byteOf (entryAt s n).id, byteOf (match (entryAt s n).cls with
              | .info => 0
              | .delay => 1
              | .disruption => 2), byteOf (entryAt s n).text.length] ++ (entryAt s n).text) none
          | none => blank)

/-- REPLY, REPLY_WINDOW_CLOSE and DROP_OFFLINE (R96, R105, R107 to R110, R113). Outside a reply window every reply is ignored, and
REPLY_WINDOW_CLOSE changes nothing (log entry 1, the model's choice); the window closes when that row comes (log entry 9, the model's
choice); within it, every run of bytes that does not begin with the drop's ACK or NAK: address, code A1 or A2, their sum low byte first;
what follows them changes nothing (R179; where one run ends and the next begins is the sender's, log entry 38, the model's choice). An
ACK clears the failure count and records what a wall row shows; a probe's ACK brings the drop ONLINE and marks it, and a request to
probe it made meanwhile leaves the probe list (log entry 35, the model's choice); a first or second failure is counted and the drop
re-marked; the third takes it OFFLINE, its mark removed, and DROP_OFFLINE is that whole end of the exchange (log entry 8, the model's
choice); a failed probe changes nothing; the outcome for a drop whose role changed is discarded. A STEP FRAME whose exchange this was
then completes with its drop and outcome 1 ACK, 2 NAK, 3 NO_REPLY, 4 NAK_OFFLINE or 5 NO_REPLY_OFFLINE; one that waits is served at once
(log entry 25, the model's choice): it sends its frame, or completes with none. -/
def Obligations.ExchangeEndsByItsOutcome : Prop :=
  (∀ (s : State) (bytes : List Byte), s.resetPin = false → (∀ f, s.display.frame = some f → f.window = false) →
    exec (.reply bytes) s = .next s ∧ exec .replyWindowClose s = .next s) ∧
  ∀ (s : State) (f : Frame), s.resetPin = false → s.display.frame = some f → f.window = true →
    f.drop < 128 → s.display.drops.length = 128 →
    let reply (code : Nat) : List Byte := [BitVec.ofNat 8 f.drop, BitVec.ofNat 8 code, BitVec.ofNat 8 (f.drop + code),
      BitVec.ofNat 8 ((f.drop + code) / 256)]
    let d := dropAt s f.drop
    let entry (x : Drop) : Display := { s.display with frame := none, drops := s.display.drops.set f.drop x }
    let fails := [Instr.reply (reply 0xA2), .replyWindowClose]
    let completes (words : List Word) (drop outcome : Word) (t : State) : State := { t with
      display := { t.display with step := .none }
      cmd := { t.cmd with
        exec := none, count := t.cmd.count + 1, response := responseHead words .done .none :: [drop, outcome, 0, 0, 0, 0] }
      att := t.att.pend .commandDone }
    (∀ bytes, bytes.take 4 ≠ reply 0xA1 → bytes.take 4 ≠ reply 0xA2 → exec (.reply bytes) s = .next s) ∧
    (∀ code ∈ [0xA1, 0xA2], ∀ more, exec (.reply (reply code ++ more)) s = exec (.reply (reply code)) s) ∧
    (f.discard = false → f.kind ≠ .probe → 2 ≤ d.failures →
      exec (.dropOffline .nak) s = exec (.reply (reply 0xA2)) s ∧
      exec (.dropOffline .noReply) s = exec .replyWindowClose s) ∧
    (f.forStep = false → s.display.step = .none →
      (f.discard = true → ∀ c ∈ Instr.reply (reply 0xA1) :: fails,
        exec c s = .next (settle s { s with display := { s.display with frame := none } })) ∧
      (f.discard = false → f.kind = .probe →
        exec (.reply (reply 0xA1)) s = .next (settle s (joinMark (markFor f.drop false none) { s with
          display := { entry { d with online := true, failures := 0, shown := none } with
            probes := s.display.probes.filter (·.drop ≠ f.drop) }
          att := s.att.pend .dropOnline })) ∧
        ∀ c ∈ fails, exec c s = .next (settle s { s with display := { s.display with frame := none } })) ∧
      (f.discard = false → f.kind ≠ .probe →
        (∀ row, d.role = .wall row →
          exec (.reply (reply 0xA1)) s =
            .next (settle s { s with display := entry { d with failures := 0, shown := f.shown } })) ∧
        ((∀ row, d.role ≠ .wall row) →
          exec (.reply (reply 0xA1)) s =
            .next (settle s { s with display := entry { d with failures := 0, shown := none } })) ∧
        (d.failures < 2 → ∀ c ∈ fails, exec c s = .next (settle s (joinMark (markFor f.drop f.urgent f.cause)
          { s with display := entry { d with failures := d.failures + 1 } }))) ∧
        (2 ≤ d.failures → ∀ c ∈ fails, exec c s = .next (settle s { s with
          display := { entry { d with online := false, failures := 0 } with
            marks := s.display.marks.filter (·.drop ≠ f.drop) }
          att := s.att.pend .dropOffline })))) ∧
    ∀ words, s.cmd.exec = some words →
      let third := decide (2 ≤ d.failures) && !f.discard
      (f.forStep = true → s.display.step = .sending →
        ∀ e ∈ [(Instr.reply (reply 0xA1), (1 : Word)), (.reply (reply 0xA2), if third then 4 else 2),
          (.replyWindowClose, if third then 5 else 3)],
          ∃ t₀ t, exec e.1 { s with display := { s.display with
              frame := some { f with forStep := false }, step := .none } } = .next t₀ ∧
            exec e.1 s = .next t ∧ UpToMarks (completes words (resultOf f.drop) e.2 t₀) t) ∧
      (f.forStep = false → s.display.step = .waiting → ∀ c ∈ Instr.reply (reply 0xA1) :: fails,
        ∃ t₀ t, exec c { s with display := { s.display with step := .none } } = .next t₀ ∧ exec c s = .next t ∧
          match (t₀.display.marks.find? fun m => m.urgent).or t₀.display.marks.head? with
          | some m => UpToMarks { t₀ with display := { t₀.display with
              step := .sending, marks := t₀.display.marks.filter (·.drop ≠ m.drop)
              frame := some (frameOf t₀ m true) } } t
          | none => UpToMarks (completes words 255 0 t₀) t)

/-! ## Cue link -/

/-- MESSAGE_BEGINS (R127, R128, R134 to R136): of the records that may go by their not-before time, the gate and the message in flight
(`MayGo`), in READY the one that goes first, in GAP the EMERGENCY one, with busy low or not used; the link is SENDING, the gap timer
stopped, and the first byte given with its strobe. None begins in SENDING, SPEAKING, STALLED and OFF, with busy high where it is used,
nor where no such record waits. The model's choices: MESSAGE_BEGINS is a command, log entry 11, and where none begins it changes
nothing, log entry 1; the count of the reference second that a not-before time has passed, log entry 10; the age of a record, log entry
32; its identity, log entry 36. -/
def Obligations.MessageBeginsWithTheNextCue : Prop :=
  (∀ (s : State) (c : Cue), s.resetPin = false → c ∈ s.cues.queue → MayGo s c →
    (s.cues.busyIn = false ∨ s.params.linkMode = .timed) →
    (s.cues.link = .ready ∨ s.cues.link = .gap ∧ c.kind = .emergency) →
    (∀ e ∈ s.cues.queue, MayGo s e → e ≠ c → e.rank < c.rank ∨
      e.rank = c.rank ∧ (s.cues.next - e.order).toNat < (s.cues.next - c.order).toNat) →
    exec .messageBegins s = .next (settle s { s with cues := { s.cues with
      link := .sending, gapTimer := none, strobe := true, dataOut := 0xC5
      msg := some {
        cue := c, bytes := messageBytes c, index := 0, condition := .unchanged, gone := false
        mode := s.params.linkMode, byteLimit := s.params.byteLimit, spacing := s.params.spacing, ack := .none
        pulseOver := false } } })) ∧
  ∀ s : State,
    (s.cues.link ≠ .ready ∧ s.cues.link ≠ .gap ∨ s.cues.busyIn = true ∧ s.params.linkMode ≠ .timed ∨
      s.cues.link = .ready ∧ (∀ c ∈ s.cues.queue, ¬MayGo s c) ∨
      s.cues.link = .gap ∧ (∀ c ∈ s.cues.queue, c.kind = .emergency → ¬MayGo s c)) →
    exec .messageBegins s = .next s

/-- ACKNOWLEDGE_INPUT, STROBE_PULSE_END, TIMED_SPACING_EXPIRY and BUSY_FALLS during a byte that is not the last (R144 to R146): the
strobe ends when acknowledge rises, or at the end of its pulse; the byte completes when the handshake of its mode is over and busy is
low, where the mode uses it, and then the next byte begins. Busy high holds a byte whose handshake is over; its fall before the
handshake is over is only a change of level. The model's choices: the end of a pulse or a spacing comes with its row, log entry 9; a
rise and fall of acknowledge may come as one event, log entry 23. -/
def Obligations.ByteCompletesByItsMode : Prop :=
  ∀ (s : State) (m : Message), s.resetPin = false → s.cues.msg = some m → s.cues.link = .sending →
    m.index + 1 < m.bytes.length →
    let next (ackIn busyIn : Bool) : State := { s with cues := { s.cues with
      ackIn := ackIn, busyIn := busyIn, strobe := true, dataOut := m.bytes.getD (m.index + 1) 0
      msg := some { m with index := m.index + 1, ack := .none, pulseOver := false } } }
    (∀ c, EndsHandshake c s m → s.cues.busyIn = false ∨ m.mode = .timed →
      exec c s = .next (settle s (next (ackAfter c s) s.cues.busyIn))) ∧
    (s.cues.busyIn = true → m.mode = .acknowledged ∧ m.ack = .done ∨ m.mode = .busy ∧ m.pulseOver = true →
      exec .busyFalls s = .next (settle s (next s.cues.ackIn false))) ∧
    (∀ c, EndsHandshake c s m → s.cues.busyIn = true → m.mode ≠ .timed →
      exec c s = .next (settle s { s with cues := { s.cues with
        ackIn := ackAfter c s, strobe := if c = .acknowledgeInput .fall then s.cues.strobe else false
        msg := some (if m.mode = .acknowledged then { m with ack := .done } else { m with pulseOver := true }) } })) ∧
    (s.cues.busyIn = true → ¬(m.mode = .acknowledged ∧ m.ack = .done ∨ m.mode = .busy ∧ m.pulseOver = true) →
      exec .busyFalls s = .next (settle s { s with cues := { s.cues with busyIn := false } })) ∧
    (m.mode = .acknowledged → s.cues.ackIn = false → m.ack = .none →
      exec (.acknowledgeInput .rise) s = .next (settle s { s with cues := { s.cues with
        ackIn := true, strobe := false, msg := some { m with ack := .risen } } })) ∧
    (m.mode = .timed → s.cues.strobe = true →
      exec .strobePulseEnd s = .next (settle s { s with cues := { s.cues with
        strobe := false, msg := some { m with pulseOver := true } } }))

/-- The end of a message (R93, R115, R119, R122, R137 to R139, R143, R147). Presented at its last byte: an UNCHANGED record leaves, or
stays with its repeat counted; a slot's announced platform or last cued delay follows the message; SPEAKING if busy is high, else GAP
with the gap timer at the gap in force, subject to the mode in force. BYTE_LIMIT_EXPIRY aborts it: noted once on an UNCHANGED record,
which leaves the second time with CUE_DROPPED. Of an aborted PLATFORM_CHANGE whose record was replaced or removed, the slot's waiting
record is set back to the announced platform in its place, or leaves, the highlight stopped and the rows and boards that changed marked
ROUTINE; every other record and slot stays; GAP, or OFF. The model's choices: the end of a pulse, a spacing or the byte limit comes with
its row, log entry 9; the not-before time is counted in seconds of the reference, log entry 10; the strobe ends with the message, log
entry 20; acknowledge may rise and fall in one event, log entry 23; a gap of 0 is READY at once, log entry 26; the numbers of the marks,
log entry 27; the abort sets back a record also of a slot vacated or expired since, log entry 28; records are told apart by their
orders, log entry 36. -/
def Obligations.MessageEndsPresentedOrAborted : Prop :=
  ∀ (s : State) (m : Message), s.resetPin = false → s.cues.msg = some m →
    (∀ c, m.index + 1 = m.bytes.length → EndsHandshake c s m →
      let off := decide (s.params.linkMode = .off)
      let speaks := decide (s.params.linkMode ≠ .timed ∧ m.mode ≠ .timed) && s.cues.busyIn
      ∃ t, exec c s = .next t ∧
        t.cues = { s.cues with
          msg := none, strobe := false, ackIn := ackAfter c s, busyTimer := t.cues.busyTimer
          link := if off then .off else if speaks then .speaking else gapState s
          gapTimer := if off then none else if speaks then s.cues.gapTimer else gapTime s
          queue := match countedRecord m s with
            | some r =>
              if r.repeatCount = r.repeatsLeft then s.cues.queue.filter fun c => decide (c.order ≠ r.order)
              else s.cues.queue.map fun x => if x.order = r.order then { x with
                aborts := 0, repeatCount := x.repeatCount + 1
                notBefore := some { time := s.refTime + s.params.interval, passed := false } } else x
            | none => s.cues.queue } ∧
        (∀ i, m.cue.slot = some i → m.gone = false → m.cue.kind = .platformChange →
          t.slots = s.slots.set i { slotAt s i with announced := m.cue.platform }) ∧
        (∀ i, m.cue.slot = some i → m.gone = false → m.cue.kind = .delay →
          t.slots = s.slots.set i { slotAt s i with lastCued := some m.cue.delay }) ∧
        (m.cue.slot = none ∨ m.gone = true ∨ m.cue.kind ≠ .platformChange ∧ m.cue.kind ≠ .delay →
          t.slots = s.slots) ∧
        t = { s with mem := { s.mem with writeBacks := t.mem.writeBacks }, slots := t.slots, cues := t.cues }) ∧
    (m.mode = .acknowledged ∨ m.mode = .busy →
      let off := decide (s.params.linkMode = .off)
      ∃ t, exec .byteLimitExpiry s = .next t ∧
        t = { s with
          mem := { s.mem with writeBacks := t.mem.writeBacks }
          slots := slotsAfterAbort m s
          att := if (countedRecord m s).any fun r => decide (r.aborts ≠ 0) then s.att.pend .cueDropped else s.att
          cues := { s.cues with
            msg := none, strobe := false, busyTimer := t.cues.busyTimer, queue := queueAfterAbort m s
            link := if off then .off else gapState s
            gapTimer := if off then none else gapTime s }
          display := { s.display with marks := t.display.marks, joinSeq := t.display.joinSeq } } ∧
        (t.slots = s.slots → t.display = s.display) ∧
        (ParamsSound s → DisplaySound s → MarksJoin (askedMarks false 0 s t) 0 s t))

/-- GAP_TIMER_EXPIRY takes the link from GAP to READY (R147). BUSY_TIMER_EXPIRY stalls it and pends CUE_LINK_CHANGE, BUSY_FALLS takes it
from SPEAKING, and with that event from STALLED, to GAP, and BUSY_RISES only raises the input (R147, R148). NOT_BEFORE_PASSES lets the
record whose time it is go ahead (R134). A change of the acknowledge input with no message in flight only changes its level (R144). The
model's choices: a timer ends when its row comes, log entry 9; a not-before time may pass once the reference stands at its second, and
the record then carries that it passed, log entry 10; acknowledge may rise and fall in one event, log entry 23; a gap of 0 is READY at
once, log entry 26; the order names the record, log entry 36. -/
def Obligations.LinkTimersAndInputsMoveTheLink : Prop :=
  ∀ s : State, s.resetPin = false →
    let gap : CueUnit := { s.cues with
      busyIn := false, link := gapState s, gapTimer := if s.params.gap = 0 then none else some s.params.gap }
    (s.cues.gapTimer.isSome = true →
      exec .gapTimerExpiry s = .next (settle s { s with cues := { s.cues with link := .ready, gapTimer := none } })) ∧
    (s.cues.busyTimer.isSome = true → exec .busyTimerExpiry s = .next (settle s { s with
      cues := { s.cues with link := .stalled, busyTimer := none }, att := s.att.pend .cueLinkChange })) ∧
    (s.cues.busyIn = false →
      exec .busyRises s = .next (settle s { s with cues := { s.cues with busyIn := true } })) ∧
    (s.cues.busyIn = true →
      (s.cues.link = .speaking → exec .busyFalls s = .next (settle s { s with cues := gap })) ∧
      (s.cues.link = .stalled →
        exec .busyFalls s = .next (settle s { s with cues := gap, att := s.att.pend .cueLinkChange })) ∧
      (s.cues.link = .ready ∨ s.cues.link = .gap ∨ s.cues.link = .off →
        exec .busyFalls s = .next (settle s { s with cues := { s.cues with busyIn := false } }))) ∧
    (∀ c n, c ∈ s.cues.queue → c.notBefore = some n → n.passed = false → n.time ≤ s.refTime →
      exec (.notBeforePasses c.order) s = .next (settle s { s with cues := { s.cues with
        queue := s.cues.queue.map fun x =>
          if x.order = c.order then { x with notBefore := x.notBefore.map fun n => { n with passed := true } }
          else x } })) ∧
    (s.cues.msg = none →
      (s.cues.ackIn = false →
        exec (.acknowledgeInput .rise) s = .next (settle s { s with cues := { s.cues with ackIn := true } }) ∧
        exec (.acknowledgeInput .riseAndFall) s = .next (settle s s)) ∧
      (s.cues.ackIn = true →
        exec (.acknowledgeInput .fall) s = .next (settle s { s with cues := { s.cues with ackIn := false } })))

/-! ## Formats -/

/-- The cue message (R149): start byte, kind, length n, the parameters of the kind, and the exclusive OR of every byte before
it: n + 4 bytes. -/
def Obligations.CueMessageIsFramed : Prop :=
  ∀ c : Cue,
    let two (n : Nat) : List Byte := [BitVec.ofNat 8 n, BitVec.ofNat 8 (n / 256)]
    let one (n : Nat) : Byte := BitVec.ofNat 8 n
    let head := two c.service ++ two c.destination ++ two c.expected
    let e : Nat × List Byte := match c.kind with
      | .platformChange => (1, head ++ [one c.fromPlatform, one c.platform, one c.repeatCount])
      | .cancellation => (2, head ++ [one c.platform, one c.repeatCount])
      | .delay => (3, head ++ [one c.platform] ++ two c.delay ++ [one c.repeatCount])
      | .boarding => (4, head ++ [one c.platform, one c.repeatCount])
      | .notice => (5, two c.phrase ++ [one c.repeatCount])
      | .general => (6, two c.phrase ++ [one c.repeatCount])
      | .emergency => (7, two c.phrase ++ [one c.repeatCount])
    ∃ check : Byte, messageBytes c = [0xC5, one e.1, one e.2.length] ++ e.2 ++ [check] ∧
      (messageBytes c).foldl (· ^^^ ·) 0 = 0 ∧
      e.2.length = (match c.kind with
        | .platformChange => 9
        | .cancellation | .boarding => 8
        | .delay => 10
        | .notice | .general | .emergency => 3)

/-- The layouts of chapter 11, bit by bit and byte by byte, with the codes as numbers: the frame, and the items of a ROW and of a BOARD
frame, those of an absent part 0 (11.6); the status word (11.1); response word 0 and the completion count (11.2); the clock, fault and
summary words (11.4); the four words of a notice status entry (11.5). Bits of no field are 0 (R179). -/
def Obligations.FramesAndWordsAreLaidOut : Prop :=
  let lo (n : Nat) : Byte := BitVec.ofNat 8 n
  let hi (n : Nat) : Byte := BitVec.ofNat 8 (n / 256)
  let bit (b : Bool) : Nat := if b then 1 else 0
  let remark (r : Remark) : Nat × Nat :=
    match r with
    | .none => (0, 0)
    | .delayed d => (1, d)
    | .cancelled => (2, 0)
    | .boarding => (3, 0)
    | .departing => (4, 0)
    | .changed => (5, 0)
  let before (c : Content) : List Byte := [lo c.operator, lo c.service, hi c.service, lo c.destination, hi c.destination]
  let behind (c : Content) : List Byte :=
    [lo c.hh, lo c.mm, lo (bit c.expected), lo c.added, hi c.added, lo c.countdown, lo c.platform, lo (remark c.remark).1,
      lo (remark c.remark).2, hi (remark c.remark).2, lo c.remarkCode, hi c.remarkCode, lo c.formation,
      lo (bit c.highlight + 2 * bit c.flash)]
  (∀ (drop : Nat) (kind : FrameKind) (items : List Byte), ∃ sum : Nat,
    let code := match kind with
      | .row => 1
      | .board => 2
      | .clock => 3
      | .ticker => 4
      | .blank => 5
      | .probe => 6
    frameBytes drop kind items = [lo drop, lo code, lo items.length] ++ items ++ [lo sum, hi sum] ∧
    sum = (([lo drop, lo code, lo items.length] ++ items).map (·.toNat)).sum % 65536) ∧
  (∀ c, rowItems c = before c ++ [lo c.via, hi c.via] ++ behind c) ∧
  (∀ main foot, boardItems main foot =
    (match main with
      | some c => 1 :: (before c ++ behind c)
      | none => List.replicate 20 0) ++
    match foot with
      | some (_, service, to') => [1, lo service, hi service, lo to']
      | none => List.replicate 4 0) ∧
  (∀ (s : State) (i : Nat), let x := slotAt s i
    x.announced ≤ 32 → x.generation ≤ 255 → (∀ p, positionOf s i = some p → p ≤ 95) →
    (∀ k, x.keys = some k → -1 ≤ k.offset ∧ k.offset ≤ 1) →
    let w := statusWord s i
    field w 0 3 = (match x.state with
      | .vacant => 0
      | .scheduled => 1
      | .boarding => 2
      | .departing => 3
      | .cancelled => 4
      | .expired => 5) ∧
    field w 3 3 = (match x.lastResult with
      | .taken => 0
      | .badTime => 1
      | .badDay => 2
      | .badPlatform => 3
      | .badDestination => 4
      | .loadFault => 5) ∧
    flag w 6 = x.capped ∧ flag w 7 = x.highlight.isSome ∧
      (BitVec.extractLsb' 8 2 w).toInt = (x.keys.map (·.offset)).getD 0 ∧ field w 10 6 = x.announced ∧
      field w 16 7 = (positionOf s i).getD 127 ∧ flag w 23 = false ∧ field w 24 8 = x.generation) ∧
  (∀ (words : List Word) (p : Primary) (q : Secondary), let w := responseHead words p q
    field w 0 8 = field (words.getD 0 0) 0 8 ∧ field w 8 8 = field (words.getD 0 0) 8 8 ∧
    field w 16 2 = (match p with
      | .done => 1
      | .refused => 2
      | .failed => 3) ∧ field w 18 6 = 0 ∧
    field w 24 4 = (match q with
      | .none => 0
      | .unknownCommand => 1
      | .badParameter => 2
      | .wrongState => 3
      | .queueFull => 4
      | .tableFull => 5
      | .crossesRoll => 6
      | .notFound => 7
      | .memoryFault => 8
      | .configInvalid => 9) ∧ field w 28 4 = 0) ∧
  (∀ c : CommandArea, responseWord c 7 = c.count ∧ ∀ k < 7, responseWord c k = c.response.getD k 0) ∧
  (∀ c : Clock, c.t < 86400 → c.roll < 1440 →
    let w := clockWord c
    let civil := (c.t + 60 * c.roll) % 86400
    field w 0 8 = civil % 60 ∧ field w 8 8 = civil / 60 % 60 ∧ field w 16 8 = civil / 3600 ∧
      field w 24 2 = (match c.state with
        | .unset => 0
        | .running => 1
        | .locked => 2
        | .freerun => 3) ∧
      field w 26 2 = (match c.source with
        | .internal => 0
        | .masterSecond => 1
        | .masterMinute => 2) ∧
      flag w 28 = decide (c.slew ≠ 0) ∧ field w 29 3 = 0) ∧
  (faultWord none = 0 ∧ ∀ f : Capture, let w := faultWord (some f)
    flag w 0 = true ∧ flag w 1 = f.more ∧ field w 2 24 = f.addr / 4 % 2 ^ 24 ∧ field w 26 2 = 0 ∧ flag w 28 = f.write ∧
      field w 29 2 = (match f.source with
        | .load => 0
        | .fetch => 1
        | .writeback => 2) ∧ flag w 31 = false) ∧
  (∀ s : State, s.rowMap.length ≤ 96 → s.display.marks.length ≤ 82 → s.cues.queue.length ≤ 16 →
    s.notices.entries.length = 8 →
    let w := summaryWord s
    field w 0 2 = (match s.part.state with
      | .starting => 0
      | .loading => 1
      | .running => 2
      | .halted => 3) ∧
    field w 2 2 = (match s.display.mode with
      | .run => 0
      | .hold => 1
      | .freeze => 2) ∧
    (∀ e ∈ [(ClockState.unset, ClockSource.internal), (.unset, .masterSecond), (.unset, .masterMinute),
        (.running, .internal), (.locked, .masterSecond), (.locked, .masterMinute), (.freerun, .masterSecond),
        (.freerun, .masterMinute)].zipIdx, (s.clock.state, s.clock.source) = e.1 → field w 4 3 = e.2) ∧
    field w 7 3 = (match s.cues.link with
      | .ready => 0
      | .sending => 1
      | .speaking => 2
      | .gap => 3
      | .stalled => 4
      | .off => 5) ∧
    flag w 10 = s.part.clamped ∧ field w 11 13 / 83 = s.rowMap.length ∧ field w 11 13 % 83 = s.display.marks.length ∧
      field w 24 8 / 9 = s.cues.queue.length ∧
      field w 24 8 % 9 = (s.notices.entries.filter fun e => decide (e.state = .active)).length) ∧
  ∀ e : Entry, e.id ≤ 255 → e.dwell ≤ 60 → e.minutes ≤ 1440 → e.text.length ≤ 240 → e.phrase ≤ 4095 → e.errAddr < 2 ^ 32 →
    let w := noticeWord e
    field (w 0) 0 8 = e.id ∧
    field (w 0) 8 2 = (match e.state with
      | .empty => 0
      | .fetching => 1
      | .active => 2) ∧
    field (w 0) 10 2 = (match e.cls with
      | .info => 0
      | .delay => 1
      | .disruption => 2) ∧
    flag (w 0) 12 = e.replacing ∧ field (w 0) 13 3 = 0 ∧
    field (w 0) 16 4 = (match e.result with
      | .none => 0
      | .accepted => 1
      | .ok => 2
      | .truncated => 3
      | .badAlign => 4
      | .outOfRange => 5
      | .memoryFault => 6
      | .emptyText => 7
      | .withdrawn => 8
      | .expired => 9) ∧
    field (w 0) 20 4 = 0 ∧ field (w 0) 24 6 = e.dwell ∧ field (w 0) 30 2 = 0 ∧ field (w 1) 0 11 = e.minutes ∧
      field (w 1) 11 5 = 0 ∧ field (w 1) 16 8 = e.text.length ∧ field (w 1) 24 8 = 0 ∧ field (w 2) 0 12 = e.phrase ∧
      field (w 2) 12 20 = 0 ∧ (w 3).toNat = e.errAddr

/-! ## Invariants -/

/-- The state right after hard reset satisfies every invariant below. That the state has the pin asserted and straps 0 is the model's
choice, log entry 3. -/
def Obligations.ResetSatisfiesTheInvariants : Prop :=
  AttentionSound State.reset ∧ ClockSound State.reset ∧ ParamsSound State.reset ∧ WriteBackSound State.reset ∧
    RequestsSound State.reset ∧ DisplaySound State.reset ∧ RowMapSound State.reset ∧ CuesSound State.reset ∧
    LinkSound State.reset ∧ NoticesSound State.reset

/-- Every step keeps: a request flag is set only for a class that is pending and not masked (R170 to R172); and the Time Base's
ranges, its state against its source, and when the loss timer runs (R46 to R50, R54). -/
def Obligations.StepKeepsAttentionAndClockSound : Prop :=
  ∀ s t : State, AttentionSound s → ClockSound s → step s = .next t → AttentionSound t ∧ ClockSound t

/-- Every step keeps: the parameters in force lie in their ranges with a valid layout (R94, R175); and the write-back set holds each
word of its class at most once, the one in flight at its head, the starvation counter in 0..255 (R13, R14, R17). That no word stays
noted between steps is of the model's own field, log entry 24. -/
def Obligations.StepKeepsParamsAndWriteBackSound : Prop :=
  ∀ s t : State, ParamsSound s → WriteBackSound s → step s = .next t → ParamsSound t ∧ WriteBackSound t

/-- Every step keeps: one own-read request for each requester that waits for an answer, and no other (R11). -/
def Obligations.StepKeepsRequestsSound : Prop :=
  ∀ s t : State, RequestsSound s → step s = .next t → RequestsSound t

/-- Every step keeps: roles by the layout, drop entries that fit them, marks only for ONLINE and probe requests only for
OFFLINE configured drops, each at most once (R94 to R97, R111). -/
def Obligations.StepKeepsDisplaySound : Prop :=
  ∀ s t : State, DisplaySound s → step s = .next t → DisplaySound t

/-- Every step keeps: "The row map contains exactly the slots in state SCHEDULED, BOARDING, DEPARTING or CANCELLED, each
once, in strictly ascending order of (Ke, platform, slot index)" (R74), and every slot fits its state (R22, R64). -/
def Obligations.StepKeepsRowMapSound : Prop :=
  ∀ s t : State, RowMapSound s → step s = .next t → RowMapSound t

/-- Every step keeps: at most 16 cues, at most one of each slot kind for a slot, and no cue and no footnote of a VACANT or
EXPIRED slot (R126, R130, R131). -/
def Obligations.StepKeepsCuesSound : Prop :=
  ∀ s t : State, CuesSound s → step s = .next t → CuesSound t

/-- Every step keeps: the link state against the message, its timers and the link mode (R136, R143, R147, R148). The model's choices:
the strobe ends with its message, log entry 20; a gap of 0 is READY at once, log entry 26; a link that is SENDING stays so where the
mode leaves OFF, log entry 40. -/
def Obligations.StepKeepsLinkSound : Prop :=
  ∀ s t : State, LinkSound s → step s = .next t → LinkSound t

/-- Every step keeps: the notice table with distinct ids and the fetch queue (R151, R154), the bounds of texts (R155), and a
rotation that shows an ACTIVE entry whenever there is one (R163). -/
def Obligations.StepKeepsNoticesSound : Prop :=
  ∀ s t : State, NoticesSound s → step s = .next t → NoticesSound t
end

