-- ==== Sys2Proof/Laws/State.lean ====
section
/-! SUPPORT. One lemma per field of each plain update of the state, so that no proof unfolds a record update. -/

namespace Sys2Proof.Machine

variable (s : State)

/-! ## Slots -/

@[simp] theorem setSlot_slots (i : Nat) (x : Slot) : (setSlot i x s).slots = s.slots.set i x := rfl
@[simp] theorem setSlot_rowMap (i : Nat) (x : Slot) : (setSlot i x s).rowMap = s.rowMap := rfl
@[simp] theorem setSlot_footnotes (i : Nat) (x : Slot) : (setSlot i x s).footnotes = s.footnotes := rfl
@[simp] theorem setSlot_clock (i : Nat) (x : Slot) : (setSlot i x s).clock = s.clock := rfl
@[simp] theorem setSlot_params (i : Nat) (x : Slot) : (setSlot i x s).params = s.params := rfl
@[simp] theorem setSlot_display (i : Nat) (x : Slot) : (setSlot i x s).display = s.display := rfl
@[simp] theorem setSlot_cues (i : Nat) (x : Slot) : (setSlot i x s).cues = s.cues := rfl
@[simp] theorem setSlot_mem (i : Nat) (x : Slot) : (setSlot i x s).mem = s.mem := rfl
@[simp] theorem setSlot_att (i : Nat) (x : Slot) : (setSlot i x s).att = s.att := rfl
@[simp] theorem setSlot_part (i : Nat) (x : Slot) : (setSlot i x s).part = s.part := rfl

/-- Slot i after a write of slot i. -/
theorem slotAt_setSlot_same {i : Nat} (x : Slot) (h : i < s.slots.length) : slotAt (setSlot i x s) i = x := by
  simp [slotAt, h]

/-- Slot j after a write of slot i. -/
theorem slotAt_setSlot_other {i j : Nat} (x : Slot) (h : j ≠ i) : slotAt (setSlot i x s) j = slotAt s j := by
  simp [slotAt, List.getD, List.getElem?_set_ne (Ne.symm h)]

/-- A slot changed twice is changed once. -/
@[simp] theorem setSlot_setSlot (i : Nat) (x y : Slot) : setSlot i y (setSlot i x s) = setSlot i y s := by
  simp [setSlot]

@[simp] theorem modSlot_length (i : Nat) (f : Slot → Slot) : (modSlot i f s).slots.length = s.slots.length := by
  simp [modSlot]

/-! ## Boards -/

@[simp] theorem mapFootnotes_length (f : Nat → Option Footnote → Option Footnote) :
    (mapFootnotes f s).footnotes.length = s.footnotes.length := by simp [mapFootnotes]
@[simp] theorem mapFootnotes_slots (f : Nat → Option Footnote → Option Footnote) :
    (mapFootnotes f s).slots = s.slots := rfl
@[simp] theorem mapFootnotes_display (f : Nat → Option Footnote → Option Footnote) :
    (mapFootnotes f s).display = s.display := rfl
@[simp] theorem mapFootnotes_cues (f : Nat → Option Footnote → Option Footnote) :
    (mapFootnotes f s).cues = s.cues := rfl

/-- Board p's record after a change of every record. -/
theorem footnoteAt_mapFootnotes (f : Nat → Option Footnote → Option Footnote) {p : Nat} (h : p - 1 < s.footnotes.length) :
    footnoteAt (mapFootnotes f s) p = f (p - 1 + 1) (footnoteAt s p) := by
  simp [footnoteAt, mapFootnotes, h]

/-! ## Drops and entries -/

@[simp] theorem modDrop_length (a : Nat) (f : Drop → Drop) :
    (modDrop a f s).display.drops.length = s.display.drops.length := by simp [modDrop]
@[simp] theorem modDrop_marks (a : Nat) (f : Drop → Drop) : (modDrop a f s).display.marks = s.display.marks := rfl
@[simp] theorem modDrop_probes (a : Nat) (f : Drop → Drop) : (modDrop a f s).display.probes = s.display.probes := rfl
@[simp] theorem modDrop_frame (a : Nat) (f : Drop → Drop) : (modDrop a f s).display.frame = s.display.frame := rfl
@[simp] theorem modDrop_params (a : Nat) (f : Drop → Drop) : (modDrop a f s).params = s.params := rfl

/-- Drop a after a change of drop a. -/
theorem dropAt_modDrop_same {a : Nat} (f : Drop → Drop) (h : a < s.display.drops.length) :
    dropAt (modDrop a f s) a = f (dropAt s a) := by simp [dropAt, modDrop, h]

/-- Drop b after a change of drop a. -/
theorem dropAt_modDrop_other {a b : Nat} (f : Drop → Drop) (h : b ≠ a) :
    dropAt (modDrop a f s) b = dropAt s b := by
  simp [dropAt, modDrop, List.getD, List.getElem?_set_ne (Ne.symm h)]

@[simp] theorem modEntry_length (i : Nat) (f : Entry → Entry) :
    (modEntry i f s).notices.entries.length = s.notices.entries.length := by simp [modEntry]
@[simp] theorem modEntry_queue (i : Nat) (f : Entry → Entry) :
    (modEntry i f s).notices.queue = s.notices.queue := rfl
@[simp] theorem modEntry_fetch (i : Nat) (f : Entry → Entry) :
    (modEntry i f s).notices.fetch = s.notices.fetch := rfl
@[simp] theorem modEntry_shown (i : Nat) (f : Entry → Entry) :
    (modEntry i f s).notices.shown = s.notices.shown := rfl

/-- Entry i after a change of entry i. -/
theorem entryAt_modEntry_same {i : Nat} (f : Entry → Entry) (h : i < s.notices.entries.length) :
    entryAt (modEntry i f s) i = f (entryAt s i) := by simp [entryAt, modEntry, h]

/-- Entry j after a change of entry i. -/
theorem entryAt_modEntry_other {i j : Nat} (f : Entry → Entry) (h : j ≠ i) :
    entryAt (modEntry i f s) j = entryAt s j := by
  simp [entryAt, modEntry, List.getD, List.getElem?_set_ne (Ne.symm h)]

/-! ## Events, the Memory Path, the part -/

@[simp] theorem pend_att (c : EventClass) : (pend c s).att = s.att.pend c := rfl
@[simp] theorem pend_slots (c : EventClass) : (pend c s).slots = s.slots := rfl
@[simp] theorem pend_rowMap (c : EventClass) : (pend c s).rowMap = s.rowMap := rfl
@[simp] theorem pend_display (c : EventClass) : (pend c s).display = s.display := rfl
@[simp] theorem pend_cues (c : EventClass) : (pend c s).cues = s.cues := rfl
@[simp] theorem pend_notices (c : EventClass) : (pend c s).notices = s.notices := rfl
@[simp] theorem pend_mem (c : EventClass) : (pend c s).mem = s.mem := rfl
@[simp] theorem pend_cmd (c : EventClass) : (pend c s).cmd = s.cmd := rfl
@[simp] theorem pend_clock (c : EventClass) : (pend c s).clock = s.clock := rfl
@[simp] theorem pend_part (c : EventClass) : (pend c s).part = s.part := rfl
@[simp] theorem pend_params (c : EventClass) : (pend c s).params = s.params := rfl
@[simp] theorem pend_footnotes (c : EventClass) : (pend c s).footnotes = s.footnotes := rfl
@[simp] theorem Attention.pend_mask (c : EventClass) (a : Attention) : (a.pend c).mask = a.mask := rfl

@[simp] theorem pendIf_slots (b : Bool) (c : EventClass) : (pendIf b c s).slots = s.slots := rfl
@[simp] theorem pendIf_cues (b : Bool) (c : EventClass) : (pendIf b c s).cues = s.cues := rfl
@[simp] theorem pendIf_mem (b : Bool) (c : EventClass) : (pendIf b c s).mem = s.mem := rfl
@[simp] theorem pendIf_clock (b : Bool) (c : EventClass) : (pendIf b c s).clock = s.clock := rfl
@[simp] theorem pendIf_true (c : EventClass) : pendIf true c s = pend c s := rfl
@[simp] theorem pendIf_false (c : EventClass) : pendIf false c s = s := rfl

@[simp] theorem noteIf_noted (b : Bool) (o : Nat) :
    (noteIf b o s).mem.noted = s.mem.noted ++ if b then [o] else [] := rfl
@[simp] theorem noteIf_writeBacks (b : Bool) (o : Nat) : (noteIf b o s).mem.writeBacks = s.mem.writeBacks := rfl
@[simp] theorem noteIf_reads (b : Bool) (o : Nat) : (noteIf b o s).mem.reads = s.mem.reads := rfl
@[simp] theorem noteIf_port (b : Bool) (o : Nat) : (noteIf b o s).mem.port = s.mem.port := rfl
@[simp] theorem noteIf_slots (b : Bool) (o : Nat) : (noteIf b o s).slots = s.slots := rfl
@[simp] theorem noteIf_rowMap (b : Bool) (o : Nat) : (noteIf b o s).rowMap = s.rowMap := rfl
@[simp] theorem noteIf_footnotes (b : Bool) (o : Nat) : (noteIf b o s).footnotes = s.footnotes := rfl
@[simp] theorem noteIf_clock (b : Bool) (o : Nat) : (noteIf b o s).clock = s.clock := rfl
@[simp] theorem noteIf_params (b : Bool) (o : Nat) : (noteIf b o s).params = s.params := rfl
@[simp] theorem noteIf_display (b : Bool) (o : Nat) : (noteIf b o s).display = s.display := rfl
@[simp] theorem noteIf_cues (b : Bool) (o : Nat) : (noteIf b o s).cues = s.cues := rfl
@[simp] theorem noteIf_notices (b : Bool) (o : Nat) : (noteIf b o s).notices = s.notices := rfl
@[simp] theorem noteIf_cmd (b : Bool) (o : Nat) : (noteIf b o s).cmd = s.cmd := rfl
@[simp] theorem noteIf_att (b : Bool) (o : Nat) : (noteIf b o s).att = s.att := rfl
@[simp] theorem noteIf_part (b : Bool) (o : Nat) : (noteIf b o s).part = s.part := rfl

@[simp] theorem setMem_mem (m : MemPath) : (setMem m s).mem = m := rfl
@[simp] theorem setMem_strap (m : MemPath) : (setMem m s).strap = s.strap := rfl
@[simp] theorem setMem_slots (m : MemPath) : (setMem m s).slots = s.slots := rfl
@[simp] theorem setMem_cmd (m : MemPath) : (setMem m s).cmd = s.cmd := rfl
@[simp] theorem setMem_att (m : MemPath) : (setMem m s).att = s.att := rfl
@[simp] theorem setMem_part (m : MemPath) : (setMem m s).part = s.part := rfl
@[simp] theorem setMem_notices (m : MemPath) : (setMem m s).notices = s.notices := rfl
@[simp] theorem setPart_state (p : PartState) (r : Reading) : (setPart p r s).part.state = p := rfl
@[simp] theorem setPart_reading (p : PartState) (r : Reading) : (setPart p r s).part.reading = r := rfl

end Sys2Proof.Machine
end

