-- ==== Sys2Proof/Laws/Cues.lean ====
section
/-! SUPPORT. What the shared operations over the Cue Queue can do (R131 to R133, R136), and what forgetting a slot leaves
(R126). -/

namespace Sys2Proof.Machine

/-- Between two states only the queue, the next enqueue order and the condition of the message in flight differ, what
CUE_DROPPED sets, and the words noted. -/
def CuesOnly (s t : State) : Prop :=
  ∃ queue next msg att noted, t = { s with
    cues := { s.cues with queue := queue, next := next, msg := msg }, att := att, mem := { s.mem with noted := noted } }

theorem CuesOnly.refl (s : State) : CuesOnly s s := ⟨_, _, _, _, _, rfl⟩

theorem CuesOnly.trans {s t u : State} (h : CuesOnly s t) (h' : CuesOnly t u) : CuesOnly s u := by
  obtain ⟨a, b, c, d, e, rfl⟩ := h
  obtain ⟨a', b', c', d', e', rfl⟩ := h'
  exact ⟨a', b', c', d', e', rfl⟩

/-- Removal takes exactly the records of the test (R133). -/
@[simp] theorem CueUnit.remove_queue (test : Cue → Bool) (u : CueUnit) :
    (u.remove test).queue = u.queue.filter fun c => !test c := by
  unfold CueUnit.remove
  simp only
  split <;> rfl

theorem CueUnit.remove_frame (test : Cue → Bool) (u : CueUnit) :
    u.remove test = { u with queue := (u.remove test).queue, msg := (u.remove test).msg } := by
  unfold CueUnit.remove
  simp only
  split <;> rfl

@[simp] theorem removeCues_queue (test : Cue → Bool) (s : State) :
    (removeCues test s).cues.queue = s.cues.queue.filter fun c => !test c := CueUnit.remove_queue test s.cues

theorem removeCues_frame (test : Cue → Bool) (s : State) : CuesOnly s (removeCues test s) := by
  unfold removeCues
  rw [CueUnit.remove_frame]
  exact ⟨_, _, _, _, _, rfl⟩

/-- The four fates of a cue handed over (R131, R132): it replaces the record of its slot and kind, joins at the tail,
displaces the victim, or is dropped. -/
theorem CueUnit.placeCue_cases (c : Cue) (u : CueUnit) :
    (u.queue.any (fun e => sameCue e c) = true ∧ u.placeCue c = (u.replace c, .replaced)) ∨
      (u.queue.any (fun e => sameCue e c) = false ∧ u.queue.length < 16 ∧ u.placeCue c = (u.join c, .joined u.next)) ∨
      (u.queue.any (fun e => sameCue e c) = false ∧ 16 ≤ u.queue.length ∧ ∃ v, victim u = some v ∧ v.rank < c.rank ∧
        u.placeCue c =
          ((u.remove fun e => decide (e.order = v.order)).join c, .displaced u.next v.kind v.slot)) ∨
      (u.queue.any (fun e => sameCue e c) = false ∧ 16 ≤ u.queue.length ∧ (∀ v, victim u = some v → c.rank ≤ v.rank) ∧
        u.placeCue c = (u, .dropped)) := by
  unfold CueUnit.placeCue
  by_cases h : u.queue.any (fun e => sameCue e c) = true
  · exact .inl ⟨h, by simp [h]⟩
  · have h' : u.queue.any (fun e => sameCue e c) = false := by simpa using h
    by_cases hl : u.queue.length < 16
    · exact .inr (.inl ⟨h', hl, by simp [h', hl]⟩)
    · have hg : 16 ≤ u.queue.length := by omega
      cases hv : victim u with
      | none => exact .inr (.inr (.inr ⟨h', hg, by simp, by simp [h', hl]⟩))
      | some v =>
        by_cases hr : v.rank < c.rank
        · exact .inr (.inr (.inl ⟨h', hg, v, rfl, hr, by simp [h', hl, hr]⟩))
        · exact .inr (.inr (.inr ⟨h', hg, by simp; omega, by simp [h', hl, hr]⟩))

/-- Replacement keeps every record's slot, kind, class and order. -/
theorem CueUnit.replace_queue (c : Cue) (u : CueUnit) :
    (u.replace c).queue = u.queue.map fun e => if sameCue e c then e.replaceBy c else e := by
  unfold CueUnit.replace
  simp only
  split <;> rfl

theorem CueUnit.replace_frame (c : Cue) (u : CueUnit) :
    u.replace c = { u with queue := (u.replace c).queue, msg := (u.replace c).msg } := by
  unfold CueUnit.replace
  simp only
  split <;> rfl

theorem CueUnit.placeCue_frame (c : Cue) (u : CueUnit) :
    ∃ queue next msg, (u.placeCue c).1 = { u with queue := queue, next := next, msg := msg } := by
  obtain ⟨-, h⟩ | ⟨-, -, h⟩ | ⟨-, -, v, -, -, h⟩ | ⟨-, -, -, h⟩ := CueUnit.placeCue_cases c u <;> rw [h]
  · exact ⟨_, _, _, CueUnit.replace_frame c u⟩
  · exact ⟨_, _, _, rfl⟩
  · have hr := CueUnit.remove_frame (fun e => decide (e.order = v.order)) u
    generalize u.remove (fun e => decide (e.order = v.order)) = w at hr ⊢
    rw [hr]
    exact ⟨_, _, _, rfl⟩
  · exact ⟨_, _, _, rfl⟩

theorem handCue_frame (c : Cue) (s : State) : CuesOnly s (handCue c s).1 := by
  obtain ⟨q, n, m, h⟩ := CueUnit.placeCue_frame c s.cues
  exact ⟨q, n, m, _, _, by unfold handCue; simp only [h]; rfl⟩

theorem makeCue_frame (c : Cue) (s : State) : CuesOnly s (makeCue c s) := handCue_frame c s

/-- A cue with room and no record to replace joins at the tail; the depth is noted as changed. -/
theorem handCue_joined (c : Cue) (s : State) (h : s.cues.queue.any (fun e => sameCue e c) = false)
    (hl : s.cues.queue.length < 16) :
    handCue c s =
      ({ s with
          mem := { s.mem with noted := s.mem.noted ++ [summaryOffset] }
          cues := { s.cues with
            queue := s.cues.queue ++ [{ c with order := s.cues.next }], next := s.cues.next + 1 } },
        .joined s.cues.next) := by
  simp [handCue, CueUnit.placeCue, h, hl, CueUnit.join, Placement.lossy, Placement.joins, noteIf, pendIf]

/-! ## Forgetting a slot (R126) -/

/-- What forgetting slot i does: its cues leave, the message of one goes on, footnotes that refer to it go, and its
highlight, announced platform and last cued delay. -/
theorem forget_frame (i : Nat) (s : State) :
    ∃ msg noted, forget i s = { s with
      mem := { s.mem with noted := noted }
      cues := { s.cues with queue := s.cues.queue.filter (fun c => !ofSlot i c), msg := msg }
      footnotes := s.footnotes.map fun n => if refersTo i n then none else n
      slots := s.slots.set i { slotAt s i with highlight := none, announced := 0, lastCued := none } } := by
  have hf : ∀ l : List (Option Footnote),
      (l.zipIdx.map fun e => if refersTo i e.1 then none else e.1) = l.map fun n => if refersTo i n then none else n := by
    intro l
    rw [← List.zipIdx_map_fst 0 l, List.map_map]
    simp
  refine ⟨(forget i s).cues.msg, (forget i s).mem.noted, ?_⟩
  unfold forget disown removeCues noteIf
  rw [CueUnit.remove_frame]
  simp only [CueUnit.remove_queue, modSlot, setSlot, mapFootnotes, slotAt, hf]

/-- No cue of a forgotten slot is left. -/
theorem forget_no_cue (i : Nat) (s : State) : ∀ c ∈ (forget i s).cues.queue, c.slot ≠ some i := by
  obtain ⟨m, n, h⟩ := forget_frame i s
  rw [h]
  intro c hc
  simp only [List.mem_filter, ofSlot, Bool.not_eq_eq_eq_not, Bool.not_true, decide_eq_false_iff_not] at hc
  exact hc.2

end Sys2Proof.Machine
end

