-- ==== Sys2Proof/Laws/Gate.lean ====
section
/-! SUPPORT. What the gate and the eligibility of a cue record come to (R127, R128, R134). -/

namespace Sys2Proof.Machine

theorem placeOf_eq_findIdx? (i : Nat) (l : List Nat) : placeOf i l = l.findIdx? fun j => decide (j = i) := by
  induction l with
  | nil => rfl
  | cons b rest ih =>
    rw [placeOf, List.findIdx?_cons, ih]
    by_cases h : b = i <;> simp [h]

/-- The gating drop of a slot, by the table of R127. -/
theorem gatingDrop_eq (s : State) (i : Nat) : gatingDrop s i = gatedBy i s := by
  unfold gatingDrop gatedBy
  split
  · unfold dropsShowing wallDrops
    rw [List.head?_filter, List.find?_map]
    rfl
  · rw [positionOf, placeOf_eq_findIdx?]
    cases s.rowMap.findIdx? fun j => decide (j = i) with
    | none => rfl
    | some row =>
      simp only [Option.filter]
      split <;> rename_i h <;> simp [h]

/-- A cue meets the gate (R128). -/
theorem meetsGate_iff (s : State) (c : Cue) :
    meetsGate s c = true ↔ ∀ i, c.slot = some i → c.kind = .platformChange ∨ c.platform ≠ 0 → ∀ a, gatedBy i s = some a →
      (dropAt s a).online = false ∨ (dropAt s a).shown = some (i, c.platform) := by
  unfold meetsGate
  cases c.slot with
  | none => simp
  | some i =>
    simp only [gatingDrop_eq]
    cases hg : gatedBy i s <;> by_cases hk : c.kind = .platformChange <;> by_cases hp : c.platform = 0 <;> simp [hk, hp, hg]

/-- A record's message is not in flight, or its record is gone (R134, R136). -/
theorem inFlight_eq_false_iff (u : CueUnit) (order : BitVec 32) :
    inFlight u order = false ↔ ∀ m, u.msg = some m → m.cue.order = order → m.condition = .removed := by
  unfold inFlight
  cases u.msg with
  | none => simp
  | some m => simp; tauto

/-- A cue record is eligible (R134). -/
theorem eligible_iff (s : State) (c : Cue) : eligible s c = true ↔ MayGo s c := by
  unfold eligible MayGo
  rw [Bool.and_eq_true, Bool.and_eq_true, Bool.not_eq_true', meetsGate_iff, inFlight_eq_false_iff, and_assoc]
  refine and_congr ?_ Iff.rfl
  cases c.notBefore <;> simp [notBeforePassed]

end Sys2Proof.Machine
end

