-- ==== Sys2Proof/Laws/Marks.lean ====
section
/-! SUPPORT. What handing marks over can do (R97, R101): nothing but the pending set and the order of joining. -/

namespace Sys2Proof.Machine

/-- Between two states only the pending set and the common order of joining differ. -/
def MarksOnly (s t : State) : Prop :=
  ∃ marks seq, t = { s with display := { s.display with marks := marks, joinSeq := seq } }

theorem MarksOnly.refl (s : State) : MarksOnly s s := ⟨_, _, rfl⟩

theorem MarksOnly.trans {s t u : State} (h : MarksOnly s t) (h' : MarksOnly t u) : MarksOnly s u := by
  obtain ⟨m, q, rfl⟩ := h
  obtain ⟨m', q', rfl⟩ := h'
  exact ⟨m', q', rfl⟩

/-- The drop table is the same, so every reading of it is. -/
theorem MarksOnly.dropAt {s t : State} (h : MarksOnly s t) (a : Nat) : dropAt t a = dropAt s a := by
  obtain ⟨m, q, rfl⟩ := h
  rfl

/-- A mark for a drop of the pending set is in it. -/
def Marked (s : State) (a : Nat) : Prop := a ∈ s.display.marks.map (·.drop)

theorem joinMark_frame (m : Mark) (s : State) : MarksOnly s (joinMark m s) := by
  unfold joinMark
  split
  · exact .refl s
  · split <;> exact ⟨_, _, rfl⟩

/-- The drops of the pending set after a mark (R97): those before, and the mark's if it is ONLINE and configured. -/
theorem joinMark_marked (m : Mark) (s : State) (a : Nat) :
    Marked (joinMark m s) a ↔
      Marked s a ∨ a = m.drop ∧ (dropAt s a).online = true ∧ (dropAt s a).role ≠ .none := by
  unfold joinMark Marked
  split
  · rename_i h
    constructor
    · exact Or.inl
    · rintro (h' | ⟨rfl, h1, h2⟩)
      · exact h'
      · simp_all
  · rename_i h
    have h' : (dropAt s m.drop).online = true ∧ (dropAt s m.drop).role ≠ .none := by simpa using h
    split
    · rename_i hm
      have hmap : (s.display.marks.map fun e => if e.drop = m.drop then e.raise m else e).map (·.drop) =
          s.display.marks.map (·.drop) := by
        rw [List.map_map]
        apply List.map_congr_left
        intro e _
        simp only [Function.comp]
        split <;> rfl
      simp only [hmap]
      constructor
      · exact Or.inl
      · rintro (h' | ⟨rfl, -⟩)
        · exact h'
        · simpa using hm
    · simp only [List.map_append, List.mem_append, List.map_cons, List.map_nil, List.mem_singleton]
      constructor
      · rintro (h1 | rfl)
        · exact .inl h1
        · exact .inr ⟨rfl, h'⟩
      · rintro (h1 | ⟨h1, -⟩)
        · exact .inl h1
        · exact .inr h1

/-- A mark keeps each drop at most once in the pending set (R97). -/
theorem joinMark_nodup (m : Mark) (s : State) (h : (s.display.marks.map (·.drop)).Nodup) :
    ((joinMark m s).display.marks.map (·.drop)).Nodup := by
  unfold joinMark
  split
  · exact h
  · split
    · have hmap : (s.display.marks.map fun e => if e.drop = m.drop then e.raise m else e).map (·.drop) =
          s.display.marks.map (·.drop) := by
        rw [List.map_map]
        apply List.map_congr_left
        intro e _
        simp only [Function.comp]
        split <;> rfl
      simpa only [hmap] using h
    · rename_i hm
      simp only [List.map_append, List.map_cons, List.map_nil]
      refine List.nodup_append.mpr ⟨h, by simp, ?_⟩
      intro a ha b hb hab
      simp only [List.mem_singleton] at hb
      subst hb hab
      apply hm
      simpa using ha

/-- A fold of marks handed over is a chain of such steps. -/
theorem foldl_marksOnly {α : Type} (f : State → α → State) (h : ∀ s a, MarksOnly s (f s a)) (xs : List α) (s : State) :
    MarksOnly s (xs.foldl f s) := by
  induction xs generalizing s with
  | nil => exact .refl s
  | cons a rest ih => exact (h s a).trans (ih (f s a))

theorem handMark_frame (m : Mark) (s : State) : MarksOnly s (handMark m s) := by
  unfold handMark
  split
  · split
    · exact foldl_marksOnly _ (fun t a => joinMark_frame _ t) _ s
    · exact joinMark_frame m s
  · exact joinMark_frame m s

/-- Outside HOLD a mark handed over is the mark itself (R101). -/
theorem handMark_eq_joinMark (m : Mark) (s : State) (h : s.display.mode ≠ .hold) : handMark m s = joinMark m s := by
  unfold handMark
  split <;> simp [h]

theorem handMarks_frame (ms : List Mark) (s : State) : MarksOnly s (handMarks ms s) :=
  foldl_marksOnly _ (fun t m => handMark_frame m t) ms s

/-- Marks handed over one after another are those handed over first, and then the rest (R97). -/
theorem handMarks_append (ms ns : List Mark) (s : State) : handMarks (ms ++ ns) s = handMarks ns (handMarks ms s) := by
  simp [handMarks]

/-- The drops of the pending set after several marks, outside HOLD (R97). -/
theorem handMarks_marked (ms : List Mark) (s : State) (a : Nat) (h : s.display.mode ≠ .hold) :
    Marked (handMarks ms s) a ↔
      Marked s a ∨ a ∈ ms.map (·.drop) ∧ (dropAt s a).online = true ∧ (dropAt s a).role ≠ .none := by
  induction ms generalizing s with
  | nil => simp [handMarks]
  | cons m rest ih =>
    have hf := joinMark_frame m s
    have hm : (joinMark m s).display.mode ≠ .hold := by
      obtain ⟨x, q, hx⟩ := hf
      rw [hx]
      exact h
    have hc : handMarks (m :: rest) s = handMarks rest (joinMark m s) := by
      simp [handMarks, handMark_eq_joinMark m s h]
    rw [hc, ih _ hm, joinMark_marked, hf.dropAt]
    simp only [List.map_cons, List.mem_cons]
    tauto

/-- Marks of several blocks: the pending set, and the count of free choices taken (log entry 12). -/
theorem handGroups_frame (groups : List (List Mark)) (s : State) :
    ∃ n, MarksOnly { s with freeCount := n } (handGroups groups s) := by
  unfold handGroups
  simp only
  split
  · exact ⟨s.freeCount, handMarks_frame _ s⟩
  · exact ⟨s.freeCount + 1, handMarks_frame _ _⟩

/-- An event with the comparison of R89 is the event, but for the pending set. -/
theorem compared_frame (cause : Option Cause) (f : State → State) (s : State) : MarksOnly (f s) (compared cause f s) :=
  handMarks_frame _ _

/-- The marks of the comparison are for the rows and boards whose rendered content differs (R89). -/
theorem mem_contentMarks (cause : Option Cause) (s t : State) (a : Nat) :
    a ∈ (contentMarks cause s t).map (·.drop) ↔
      (∃ row < t.params.w, a = t.params.firstWall + row ∧ rowContent s row ≠ rowContent t row) ∨
        ∃ k < t.params.p, a = t.params.boardBase + (k + 1) - 1 ∧ boardContent s (k + 1) ≠ boardContent t (k + 1) := by
  have hc : ∀ drop concerned, (causedMark cause drop concerned).drop = drop := by
    intro drop concerned
    unfold causedMark
    split
    · split <;> rfl
    · rfl
  simp only [contentMarks, List.map_append, List.mem_append, List.mem_map, List.mem_filterMap, List.mem_range, rowMark,
    boardMark]
  constructor
  · rintro (⟨m, ⟨row, hr, hm⟩, rfl⟩ | ⟨m, ⟨k, hk, hm⟩, rfl⟩)
    · split at hm
      · cases hm
      · rename_i hne
        cases hm
        exact .inl ⟨row, hr, hc _ _, hne⟩
    · split at hm
      · cases hm
      · rename_i hne
        cases hm
        exact .inr ⟨k, hk, hc _ _, hne⟩
  · rintro (⟨row, hr, rfl, hne⟩ | ⟨k, hk, rfl, hne⟩)
    · exact .inl ⟨_, ⟨row, hr, by rw [if_neg hne]⟩, hc _ _⟩
    · exact .inr ⟨_, ⟨k, hk, by rw [if_neg hne]⟩, hc _ _⟩

end Sys2Proof.Machine
end

