-- ==== Sys2Proof/Laws/Ops.lean ====
section
/-! SUPPORT. What the other shared operations can do: completing a command (R168), the row map (R75, R76), arranging. -/

namespace Sys2Proof.Machine

/-! ## Completion of a command -/

/-- Without a command in execution there is nothing to complete. -/
theorem complete_none (p : Primary) (q : Secondary) (results : List Word) (s : State) (h : s.cmd.exec = none) :
    complete p q results s = s := by simp [complete, h]

/-- The command in execution completes: its response, the count, COMMAND_DONE, and nothing else (R168). -/
theorem complete_some (p : Primary) (q : Secondary) (results : List Word) (s : State) (words : List Word)
    (h : s.cmd.exec = some words) :
    complete p q results s = { s with
      att := s.att.pend .commandDone
      cmd := { s.cmd with
        exec := none, response := responseHead words p q :: resultWords results, count := s.cmd.count + 1 } } := by
  simp [complete, h, pend]

/-- Six result words, always. -/
@[simp] theorem resultWords_length (results : List Word) : (resultWords results).length = 6 := by simp [resultWords]

/-- Six words are their own result words. -/
theorem resultWords_six (a b c d e f : Word) : resultWords [a, b, c, d, e, f] = [a, b, c, d, e, f] := rfl

/-! ## The row map -/

@[simp] theorem place_slots (i : Nat) (s : State) : (place i s).slots = s.slots := by
  unfold place
  simp only
  split <;> rfl

theorem place_frame (i : Nat) (s : State) : place i s = { s with rowMap := (place i s).rowMap } := by
  unfold place
  simp only
  split <;> rfl

/-- The slots of the row map after a slot is placed (R75). -/
theorem mem_place (i j : Nat) (s : State) :
    j ∈ (place i s).rowMap ↔ j ≠ i ∧ j ∈ s.rowMap ∨ j = i ∧ (slotAt s i).state.active = true := by
  unfold place
  simp only
  split
  · rename_i h
    rw [List.mem_insertIdx (List.length_filter_le _ _)]
    simp [h, and_comm, or_comm]
  · rename_i h
    simp [h, and_comm]

/-- A slot left out of the row map (R76). -/
theorem mem_unplace (i j : Nat) (s : State) : j ∈ (unplace i s).rowMap ↔ j ≠ i ∧ j ∈ s.rowMap := by
  simp [unplace, and_comm]

/-- The other slots keep their order when one is placed (R75). -/
theorem place_others (i : Nat) (s : State) :
    (place i s).rowMap.filter (fun j => decide (j ≠ i)) = s.rowMap.filter fun j => decide (j ≠ i) := by
  have key : ∀ (l : List Nat) (n : Nat), n ≤ l.length →
      (l.insertIdx n i).filter (fun j => decide (j ≠ i)) = l.filter fun j => decide (j ≠ i) := by
    intro l
    induction l with
    | nil =>
      intro n hn
      have hn : n = 0 := by simpa using hn
      subst hn
      simp
    | cons a rest ih =>
      intro n hn
      cases n with
      | zero => simp
      | succ n =>
        rw [List.insertIdx_succ_cons, List.filter_cons, List.filter_cons, ih n (by simpa using hn)]
  unfold place
  simp only
  split
  · rw [key _ _ (List.length_filter_le _ _), List.filter_filter]
    simp
  · rw [List.filter_filter]
    simp

/-- The row map loses what is not active, and keeps its order (R76). -/
theorem pruneRowMap_rowMap (s : State) :
    (pruneRowMap s).rowMap = s.rowMap.filter fun i => (slotAt s i).state.active := rfl

/-! ## Arrangements -/

/-- An arrangement has the same members, each as often. -/
theorem arrange_perm {α : Type} (k : Nat) (xs : List α) : (arrange k xs).Perm xs := by
  induction xs generalizing k with
  | nil => simp [arrange]
  | cons x rest ih =>
    cases rest with
    | nil => simp [arrange]
    | cons y rest =>
      simp only [arrange]
      have hp := ih (k / (rest.length + 2))
      have hlen : (arrange (k / (rest.length + 2)) (y :: rest)).length = rest.length + 1 := by
        rw [hp.length_eq]
        simp
      have hlt : k % (rest.length + 2) ≤ (arrange (k / (rest.length + 2)) (y :: rest)).length := by
        rw [hlen]
        have := Nat.mod_lt k (show 0 < rest.length + 2 by omega)
        omega
      exact (List.perm_insertIdx x _ hlt).trans (hp.cons x)

end Sys2Proof.Machine
end

