-- ==== Sys2Proof/Laws/Reply.lean ====
section
/-! SUPPORT. What a reply to a frame can come to (R107, R179). -/

namespace Sys2Proof.Machine

/-- A reply is judged by its first four bytes (R107, R179). -/
theorem replyOutcome_take (drop : Nat) (bytes : List Byte) : replyOutcome drop (bytes.take 4) = replyOutcome drop bytes := by
  rcases bytes with _ | ⟨a, _ | ⟨b, _ | ⟨c, _ | ⟨d, rest⟩⟩⟩⟩ <;> rfl

/-- A reply has an outcome exactly where it begins with the drop's address, the code of that outcome and their sum (R107). -/
theorem replyOutcome_eq_some_iff {drop : Nat} {bytes : List Byte} {o : Exchange} :
    replyOutcome drop bytes = some o ↔
      ∃ code more, bytes = byteOf drop :: code :: (twoBytes (sumCheck [byteOf drop, code]) ++ more) ∧
        (code = 0xA1 ∧ o = .ack ∨ code = 0xA2 ∧ o = .nak) := by
  constructor
  · intro h
    rcases bytes with _ | ⟨a, _ | ⟨code, _ | ⟨lo, _ | ⟨hi, more⟩⟩⟩⟩ <;> try cases h
    simp only [replyOutcome] at h
    split at h
    · rename_i ha
      obtain ⟨rfl, hc⟩ := ha
      refine ⟨code, more, by rw [← hc]; rfl, ?_⟩
      split at h
      · exact .inl ⟨‹_›, (Option.some.inj h).symm⟩
      · split at h
        · exact .inr ⟨‹_›, (Option.some.inj h).symm⟩
        · cases h
    · cases h
  · rintro ⟨code, more, rfl, ⟨rfl, rfl⟩ | ⟨rfl, rfl⟩⟩ <;> simp [replyOutcome, twoBytes]

/-- Bytes that follow the first four of a reply change nothing (R179). -/
theorem receiveReply_append (s : State) (a b c d : Byte) (more : List Byte) :
    receiveReply (a :: b :: c :: d :: more) s = receiveReply [a, b, c, d] s := rfl

end Sys2Proof.Machine
end

