-- ==== Sys2Proof/Laws/Reports.lean ====
section
/-! SUPPORT. What the Service Change Logic can do for one slot (chapter 7): its share of that slot, footnotes, cues, and
CUE_DROPPED; and what taking or vacating a record can do. -/

namespace Sys2Proof.Machine

/-- Between two states only slot i's highlight, announced platform and last cued delay differ, the footnotes, the Cue
Queue, flags, and the words noted. -/
def ReportsFor (i : Nat) (s t : State) : Prop :=
  ∃ (highlight : Option Nat) (announced : Nat) (lastCued : Option Nat) (footnotes : List (Option Footnote))
    (queue : List Cue) (next : BitVec 32) (msg : Option Message) (att : Attention) (noted : List Nat),
    t = { s with
      mem := { s.mem with noted := noted }
      slots := s.slots.set i { slotAt s i with highlight := highlight, announced := announced, lastCued := lastCued }
      footnotes := footnotes, cues := { s.cues with queue := queue, next := next, msg := msg }, att := att }

theorem setSlot_self (i : Nat) (s : State) : s.slots.set i (slotAt s i) = s.slots := by
  by_cases h : i < s.slots.length
  · apply List.ext_getElem?
    intro j
    by_cases hj : i = j
    · subst hj
      simp [slotAt, h]
    · simp [List.getElem?_set_ne hj]
  · exact List.set_eq_of_length_le (by omega)

theorem ReportsFor.refl (i : Nat) (s : State) : ReportsFor i s s :=
  ⟨(slotAt s i).highlight, (slotAt s i).announced, (slotAt s i).lastCued, s.footnotes, s.cues.queue, s.cues.next,
    s.cues.msg, s.att, s.mem.noted, by
      have h : s.slots.set i { slotAt s i with
          highlight := (slotAt s i).highlight, announced := (slotAt s i).announced
          lastCued := (slotAt s i).lastCued } = s.slots := setSlot_self i s
      rw [h]⟩

theorem ReportsFor.trans {i : Nat} {s t u : State} (h : ReportsFor i s t) (h' : ReportsFor i t u) :
    ReportsFor i s u := by
  obtain ⟨a, b, c, f, q, n, m, e, w, rfl⟩ := h
  obtain ⟨a', b', c', f', q', n', m', e', w', rfl⟩ := h'
  refine ⟨a', b', c', f', q', n', m', e', w', ?_⟩
  by_cases hi : i < s.slots.length
  · simp [slotAt, hi]
  · have hs : ∀ x, s.slots.set i x = s.slots := fun x => List.set_eq_of_length_le (by omega)
    simp only [hs]

theorem CuesOnly.reportsFor {s t : State} (i : Nat) (h : CuesOnly s t) : ReportsFor i s t := by
  obtain ⟨q, n, m, e, w, rfl⟩ := h
  refine ⟨(slotAt s i).highlight, (slotAt s i).announced, (slotAt s i).lastCued, s.footnotes, q, n, m, e, w, ?_⟩
  have hs : s.slots.set i { slotAt s i with
      highlight := (slotAt s i).highlight, announced := (slotAt s i).announced
      lastCued := (slotAt s i).lastCued } = s.slots := setSlot_self i s
  rw [hs]

theorem mapFootnotes_reports (i : Nat) (f : Nat → Option Footnote → Option Footnote) (s : State) :
    ReportsFor i s (mapFootnotes f s) := by
  refine ⟨(slotAt s i).highlight, (slotAt s i).announced, (slotAt s i).lastCued, (mapFootnotes f s).footnotes,
    s.cues.queue, s.cues.next, s.cues.msg, s.att, s.mem.noted, ?_⟩
  have hs : s.slots.set i { slotAt s i with
      highlight := (slotAt s i).highlight, announced := (slotAt s i).announced
      lastCued := (slotAt s i).lastCued } = s.slots := setSlot_self i s
  rw [hs]
  rfl

theorem removeCues_reports (i : Nat) (test : Cue → Bool) (s : State) : ReportsFor i s (removeCues test s) :=
  (removeCues_frame test s).reportsFor i

theorem makeCue_reports (i : Nat) (c : Cue) (s : State) : ReportsFor i s (makeCue c s) := (makeCue_frame c s).reportsFor i

/-- A change of slot i's share of the Service Change Logic. -/
theorem modSlot_reports (i : Nat) (f : Slot → Slot) (s : State)
    (h : ∀ x, f x = { x with highlight := (f x).highlight, announced := (f x).announced, lastCued := (f x).lastCued }) :
    ReportsFor i s (modSlot i f s) :=
  ⟨_, _, _, s.footnotes, s.cues.queue, s.cues.next, s.cues.msg, s.att, s.mem.noted, by
    unfold modSlot setSlot
    rw [h]⟩

theorem noteIf_reports (i : Nat) (b : Bool) (o : Nat) (s : State) : ReportsFor i s (noteIf b o s) :=
  CuesOnly.reportsFor i ⟨s.cues.queue, s.cues.next, s.cues.msg, s.att, _, rfl⟩

theorem announceFromRecord_reports (i : Nat) (s : State) : ReportsFor i s (announceFromRecord i s) :=
  (modSlot_reports i _ s fun x => by split <;> rfl).trans (noteIf_reports i _ _ _)

theorem startHighlight_reports (i : Nat) (s : State) : ReportsFor i s (startHighlight i s) :=
  modSlot_reports i _ s fun _ => rfl

theorem stopHighlight_reports (i : Nat) (s : State) : ReportsFor i s (stopHighlight i s) :=
  modSlot_reports i _ s fun _ => rfl

theorem forget_reports (i : Nat) (s : State) : ReportsFor i s (forget i s) := by
  obtain ⟨m, n, h⟩ := forget_frame i s
  exact ⟨none, 0, none, _, _, s.cues.next, m, s.att, n, h⟩

theorem redirect_reports (a q i : Nat) (s : State) : ReportsFor i s (redirect a q i s) := mapFootnotes_reports i _ s

theorem changeHighlight_reports (i : Nat) (r : Record) (s : State) : ReportsFor i s (changeHighlight i r s) := by
  unfold changeHighlight
  split
  · exact stopHighlight_reports i s
  · exact startHighlight_reports i s

theorem reportBoards_reports (i : Nat) (old : Slot) (r : Record) (s : State) :
    ReportsFor i s (reportBoards i old r s) := by
  unfold reportBoards
  split
  · simp only
    split
    · exact (redirect_reports _ _ i s).trans (changeHighlight_reports i r _)
    · exact redirect_reports _ _ i s
  · exact .refl i s

theorem reportCancellation_reports (i : Nat) (old : Slot) (r : Record) (s : State) :
    ReportsFor i s (reportCancellation i old r s) := by
  unfold reportCancellation cancelCues reinstate
  split
  · split
    · simp only
      split
      · exact (removeCues_reports i _ s).trans (makeCue_reports i _ _)
      · exact removeCues_reports i _ s
    · split
      · exact removeCues_reports i _ s
      · exact .refl i s
  · exact .refl i s

theorem reportPlatformCue_reports (i : Nat) (old : Slot) (r : Record) (s : State) :
    ReportsFor i s (reportPlatformCue i old r s) := by
  unfold reportPlatformCue changeCue
  split
  · split
    · exact removeCues_reports i _ s
    · split
      · exact removeCues_reports i _ s
      · exact makeCue_reports i _ s
  · exact .refl i s

theorem delayRule_reports (i : Nat) (r : Record) (s : State) : ReportsFor i s (delayRule i r s) := by
  unfold delayRule
  split
  · exact .refl i s
  · split
    · exact makeCue_reports i _ s
    · exact removeCues_reports i _ s

theorem commitCourse_reports (i : Nat) (s : State) : ReportsFor i s (commitCourse i s) := by
  unfold commitCourse
  split
  · exact removeCues_reports i _ s
  · exact removeCues_reports i _ s
  · exact .refl i s

theorem refreshCues_reports (i : Nat) (r : Record) (s : State) : ReportsFor i s (refreshCues i r s) := by
  unfold refreshCues
  split
  · exact removeCues_reports i _ s
  · exact CuesOnly.reportsFor i ⟨_, s.cues.next, s.cues.msg, s.att, s.mem.noted, rfl⟩

/-- A commit report (R116): slot i's share of the Service Change Logic, footnotes, cues, and nothing else. -/
theorem commitReport_reports (i : Nat) (old : Slot) (r : Record) (quiet : Bool) (s : State) :
    ReportsFor i s (commitReport i old r quiet s) := by
  unfold commitReport quietReport loudReport
  split
  · exact (removeCues_reports i _ s).trans (announceFromRecord_reports i _)
  · exact ((((((reportBoards_reports i old r s).trans (reportCancellation_reports i old r _)).trans
      (reportPlatformCue_reports i old r _)).trans (delayRule_reports i r _)).trans (commitCourse_reports i _)).trans
      (refreshCues_reports i r _)).trans (announceFromRecord_reports i _)

/-- A time-driven move's report (R124). -/
theorem moveReport_reports (i : Nat) (left reached : SlotState) (s : State) :
    ReportsFor i s (moveReport i left reached s) := by
  unfold moveReport
  split
  · split
    · split
      · exact makeCue_reports i _ s
      · exact .refl i s
    · exact .refl i s
  · exact removeCues_reports i _ s
  · exact removeCues_reports i _ s
  · exact forget_reports i s
  · exact .refl i s

/-- A record taken, less the comparison (R26 to R29): the slot taken, the row map, and the report for it. -/
theorem applyRecord_reports (i : Nat) (quiet : Bool) (s : State) :
    ReportsFor i (place i (setSlot i ((slotAt s i).take s.params s.clock) s)) (applyRecord i quiet s) := by
  unfold applyRecord forgetExpired
  simp only
  split
  · exact (commitReport_reports i _ _ quiet _).trans (forget_reports i _)
  · exact commitReport_reports i _ _ quiet _

/-- A record taken (R29): that, and marks. -/
theorem takeRecord_frame (i : Nat) (quiet : Bool) (s : State) :
    ∃ t, ReportsFor i (place i (setSlot i ((slotAt s i).take s.params s.clock) s)) t ∧
      MarksOnly t (takeRecord i quiet s) :=
  ⟨_, applyRecord_reports i quiet s, compared_frame _ _ s⟩

/-- A slot vacated (R31): out of the row map, forgotten, and marks. -/
theorem vacateSlot_frame (i : Nat) (result : LastResult) (generation : Nat) (s : State) :
    MarksOnly (forget i (unplace i (modSlot i (Slot.vacate result generation) s)))
      (vacateSlot i result generation s) :=
  compared_frame _ _ s

end Sys2Proof.Machine
end

