-- ==== Sys2Proof/Laws/WriteBack.lean ====
section
/-! SUPPORT. The write-back set (R13, R14), lane merges (R4), and the end of an event. -/

namespace Sys2Proof.Machine

/-! ## Marks for write-back -/

/-- What a mark does to the set: an entry already there keeps its place (the head's change since start apart), another
joins at the tail; nothing else of the Memory Path changes. -/
theorem MemPath.mark_spec (m : MemPath) (o : Nat) :
    m.mark o = { m with writeBacks := (m.mark o).writeBacks } ∧
      (m.mark o).writeBacks.map (·.offset) =
        if o ∈ m.writeBacks.map (·.offset) then m.writeBacks.map (·.offset) else m.writeBacks.map (·.offset) ++ [o] := by
  have key : ∀ (es : List WbEntry), (es.any fun x => decide (x.offset = o)) = true ↔ o ∈ es.map (·.offset) := by
    intro es
    simp [List.any_eq_true]
  unfold MemPath.mark
  split
  · rename_i e rest _ he
    rw [he]
    by_cases h : e.offset = o
    · simp [h]
    · by_cases hr : o ∈ rest.map (·.offset)
      · simp only [h, ↓reduceIte, (key rest).2 hr]
        exact ⟨trivial, by rw [he, if_pos (by simp only [List.map_cons, List.mem_cons]; exact .inr hr)]⟩
      · have ho : ¬ o ∈ (e :: rest).map (·.offset) := by
          simp only [List.map_cons, List.mem_cons, not_or]
          exact ⟨fun hh => h hh.symm, hr⟩
        have hk : (rest.any fun x => decide (x.offset = o)) = false := by
          rw [Bool.eq_false_iff, ne_eq, key]; exact hr
        simp only [h, ↓reduceIte, hk, Bool.false_eq_true, if_neg ho]
        exact ⟨trivial, by simp⟩
  · by_cases hr : o ∈ m.writeBacks.map (·.offset)
    · simp only [(key _).2 hr, ↓reduceIte, if_pos hr]
      exact ⟨trivial, trivial⟩
    · have hk : (m.writeBacks.any fun x => decide (x.offset = o)) = false := by
        rw [Bool.eq_false_iff, ne_eq, key]; exact hr
      simp only [hk, Bool.false_eq_true, ↓reduceIte, if_neg hr]
      exact ⟨trivial, by simp⟩

/-- Members of the set after a mark. -/
theorem MemPath.mem_mark (m : MemPath) (o x : Nat) :
    x ∈ (m.mark o).writeBacks.map (·.offset) ↔ x ∈ m.writeBacks.map (·.offset) ∨ x = o := by
  rw [(m.mark_spec o).2]
  split
  · constructor
    · exact Or.inl
    · rintro (h | rfl) <;> assumption
  · simp

/-- A mark keeps each word at most once in the set (R13). -/
theorem MemPath.mark_nodup (m : MemPath) (o : Nat) (h : (m.writeBacks.map (·.offset)).Nodup) :
    ((m.mark o).writeBacks.map (·.offset)).Nodup := by
  rw [(m.mark_spec o).2]
  split
  · exact h
  · rename_i ho
    exact List.nodup_append.mpr ⟨h, by simp, by
      intro a ha b hb hab
      simp only [List.mem_singleton] at hb
      exact ho (hb ▸ hab ▸ ha)⟩

/-- A mark keeps the word at the head of a set that has one. -/
theorem MemPath.mark_head (m : MemPath) (o x : Nat) (h : m.writeBacks.head?.map (·.offset) = some x) :
    (m.mark o).writeBacks.head?.map (·.offset) = some x := by
  have key := (m.mark_spec o).2
  rw [← List.head?_map] at h ⊢
  rw [key]
  split
  · exact h
  · cases hm : m.writeBacks.map (·.offset) <;> simp_all

/-- Several marks leave everything but the set as it was. -/
theorem foldl_mark_frame (os : List Nat) (m : MemPath) :
    os.foldl MemPath.mark m = { m with writeBacks := (os.foldl MemPath.mark m).writeBacks } := by
  induction os generalizing m with
  | nil => rfl
  | cons o rest ih =>
    simp only [List.foldl_cons]
    rw [ih (m.mark o)]
    rw [(m.mark_spec o).1]

/-- Members of the set after several marks. -/
theorem mem_foldl_mark (os : List Nat) (m : MemPath) (x : Nat) :
    x ∈ (os.foldl MemPath.mark m).writeBacks.map (·.offset) ↔ x ∈ m.writeBacks.map (·.offset) ∨ x ∈ os := by
  induction os generalizing m with
  | nil => simp
  | cons o rest ih =>
    simp only [List.foldl_cons, ih, MemPath.mem_mark, List.mem_cons]
    tauto

/-- Several marks keep each word at most once in the set (R13). -/
theorem foldl_mark_nodup (os : List Nat) (m : MemPath) (h : (m.writeBacks.map (·.offset)).Nodup) :
    ((os.foldl MemPath.mark m).writeBacks.map (·.offset)).Nodup := by
  induction os generalizing m with
  | nil => exact h
  | cons o rest ih => exact ih _ (m.mark_nodup o h)

/-! ## Words noted within an event -/

/-- Several notes leave everything but the words noted as it was, and keep those noted before them. -/
theorem foldl_noteIf_spec (ks : List Nat) (b : Nat → Bool) (o : Nat → Nat) (s : State) :
    ks.foldl (fun u k => noteIf (b k) (o k) u) s =
      { s with mem := { s.mem with noted := s.mem.noted ++ (ks.filter b).map o } } := by
  induction ks generalizing s with
  | nil => simp
  | cons k rest ih =>
    rw [List.foldl_cons, ih]
    cases h : b k <;> simp [noteIf, h]

/-- The words of an entry that differ from `s` to `t` are noted, in ascending order, and nothing else changes. -/
theorem noteEntry_spec (i : Nat) (s t : State) :
    noteEntry i s t = { t with mem := { t.mem with
      noted := t.mem.noted ++ ((List.range 4).filter fun k =>
        decide (noticeWord (entryAt s i) k ≠ noticeWord (entryAt t i) k)).map (noticeOffset i) } } :=
  foldl_noteIf_spec _ _ _ t

/-- What the end of an event marks: a word whose content differs, or that was noted within the event. -/
theorem mem_markedBy (s t : State) (o : Nat) :
    o ∈ markedBy s t ↔ o ∈ writtenBack ∧ (changedBy s t o = true ∨ o ∈ t.mem.noted.drop s.mem.noted.length) := by
  simp [markedBy, marksWord, notedBy]

/-! ## The end of an event -/

/-- The end of an event changes the write-back set, the words noted and the busy timer, and nothing else. -/
theorem settle_frame (s t : State) :
    settle s t = { t with
      mem := { t.mem with writeBacks := (settle s t).mem.writeBacks, noted := s.mem.noted }
      cues := { t.cues with busyTimer := (settle s t).cues.busyTimer } } := rfl

/-- A command that occurs, and one that does not. -/
theorem occur_eq (can : Bool) (f : State → State) (s : State) :
    occur can f s = .next (if s.resetPin = false ∧ can = true then settle s (f s) else s) := by
  simp only [occur]
  split <;> rename_i h <;> simp_all

/-! ## Lanes -/

/-- Bit b of a lane merge is the data's where the lane is enabled, else the old word's (R4). -/
theorem getLsbD_laneMask (lanes : BitVec 4) (b : Nat) (h : b < 32) :
    (laneMask lanes).getLsbD b = lanes.getLsbD (b / 8) := by
  unfold laneMask
  interval_cases b <;> cases h0 : lanes.getLsbD 0 <;> cases h1 : lanes.getLsbD 1 <;> cases h2 : lanes.getLsbD 2 <;>
    cases h3 : lanes.getLsbD 3 <;> simp_all

/-- A lane merge, bit by bit (R4). -/
theorem getLsbD_mergeLanes (old data : Word) (lanes : BitVec 4) (b : Nat) (h : b < 32) :
    (mergeLanes old data lanes).getLsbD b = if lanes.getLsbD (b / 8) then data.getLsbD b else old.getLsbD b := by
  simp only [mergeLanes, BitVec.getLsbD_or, BitVec.getLsbD_and, BitVec.getLsbD_not, getLsbD_laneMask _ _ h, h]
  cases lanes.getLsbD (b / 8) <;> simp

end Sys2Proof.Machine
end

