-- ==== Sys2Proof/Tests/Slice0.lean ====
section
/-! SUPPORT. Tests: ill-formed commands, one step of every command with the result the spec gives, and for every statement
with hypotheses a state and operands that meet them. -/

namespace Sys2Proof.Tests

open Sys2Proof.Machine

set_option Elab.async false

/-! ## Small states -/

/-- The state a command answers. -/
def after (c : Instr) (s : State) : State :=
  match exec c s with
  | .next t => t
  | _ => s

/-- The part in RUNNING, every word of its write-back set written. -/
def up : State :=
  { State.reset with
    resetPin := false
    mem := { MemPath.reset with writeBacks := [] }
    part := { Part.reset with state := .running, configured := true } }

/-- The clock replaced. -/
def withClock (state : ClockState) (source : ClockSource) (t : Nat) (s : State) : State :=
  { s with clock := { s.clock with
    t := t, state := state, source := source, loss := if state = .locked then some (lossTime source) else none } }

/-- The clock RUNNING at a service time. -/
def runningAt (t : Nat) : State := withClock .running .internal t up

/-- An access by its byte address. -/
def access (addr : Nat) (write : Bool) (data : Word) (lanes : BitVec 4) : Access :=
  { addr := BitVec.ofNat 30 (addr / 4), write := write, data := data, lanes := lanes }

/-- A processor access in flight on the memory-side port. -/
def busWith (a : Access) (s : State) : State := { s with mem := { s.mem with port := .processor a } }

/-- A read of an offset in flight; the straps are 0. -/
def readOf (offset : Nat) : Access := access offset false 0 15

/-- A full write of an offset. -/
def writeOf (offset : Nat) (data : Word) : Access := access offset true data 15

/-- The write that triggers a command. -/
def triggerWrite : Access := writeOf 0x1C 0

/-- A trigger in flight with these command words staged. -/
def commanding (words : List Word) (s : State) : State :=
  busWith triggerWrite { s with cmd := { s.cmd with staging := words } }

/-- An own read of this address and source in flight. -/
def ownRead (addr : Nat) (source : ReadSource) (s : State) : State :=
  { s with mem := { s.mem with
    port := .ownRead { addr := addr, source := source }, reads := [{ addr := addr, source := source }] } }

/-- A write-back in flight, with this set. -/
def writingBack (offset : Nat) (data : Word) (set : List WbEntry) (s : State) : State :=
  { s with mem := { s.mem with port := .writeBack offset data, writeBacks := set } }

/-- An entry of the write-back set without a change since start. -/
def entry (offset : Nat) : WbEntry := { offset := offset, changed := false }

/-- The slots from slot 0 on; the others stay VACANT. -/
def withSlots (xs : List (Nat × Slot)) (rows : List Nat) (s : State) : State :=
  { s with slots := xs.foldl (fun l x => l.set x.1 x.2) s.slots, rowMap := rows }

/-- A record of section 12.3: scheduled minute, day, delay, platform. -/
def recordAt (minute : Nat) (day : DaySelect) (delay platform : Nat) : Record :=
  { service := 1, operator := 1, destination := 7, via := 0, minute := minute, day := day, platform := platform
    delay := delay, cancelled := false, announce := true, formation := 0, remark := 0 }

/-- A slot that holds a record under roll minute 180. -/
def slotWith (r : Record) (state : SlotState) : Slot :=
  { Slot.reset with applied := some r, keys := some (keysOf 180 r), state := state, announced := r.platform }

/-- The staging copy of a record: destination 7, announce set; and its commit word. -/
def stagingOf (minute day platform delay : Nat) (commit : Word) : List Word :=
  [0x00010001, 7, packWord [(minute, 0), (day, 12), (platform, 16)], packWord [(delay, 0), (1, 13)], 0, commit]

/-- A commit word with valid set: generation 9. -/
def validCommit : Word := 0x00000901

/-- A commit of slot i in flight, its record words staged. -/
def committing (i minute day platform delay : Nat) (commit : Word) (s : State) : State :=
  busWith (writeOf (0x1000 + 32 * i + 28) commit)
    (setSlot i { slotAt s i with staging := stagingOf minute day platform delay 0 } s)

/-- A frame in flight to a drop, its reply window open. -/
def exchanging (drop : Nat) (kind : FrameKind) (s : State) : State :=
  { s with display := { s.display with frame := some {
    drop := drop, kind := kind, shown := none, urgent := false, cause := none, forStep := false, discard := false
    bytes := [], window := true } } }

/-- A drop OFFLINE. -/
def offline (a : Nat) (s : State) : State := modDrop a (fun d => { d with online := false }) s

/-- The failure count of a drop. -/
def failing (a n : Nat) (s : State) : State := modDrop a (fun d => { d with failures := n }) s

/-- A reply of a drop with its check. -/
def replyOf (drop : Nat) (code : Byte) : List Byte := [byteOf drop, code] ++ twoBytes (sumCheck [byteOf drop, code])

/-- The GENERAL cue with phrase 0x0123. -/
def general : Cue := phraseCue .general 0x0123 0

/-- Cues waiting, with the enqueue orders from 0 on. -/
def cueing (cs : List Cue) (s : State) : State :=
  { s with cues := { s.cues with
    queue := cs.zipIdx.map fun e => { e.1 with order := BitVec.ofNat 32 e.2 }, next := BitVec.ofNat 32 cs.length } }

/-- The message of a cue in flight, at a byte, under a mode. -/
def sending (c : Cue) (mode : LinkMode) (index : Nat) (s : State) : State :=
  { s with cues := { s.cues with
    link := .sending, strobe := true
    msg := some {
      cue := c, bytes := messageBytes c, index := index, condition := .unchanged, gone := false, mode := mode
      byteLimit := 20, spacing := 10, ack := .none, pulseOver := false } } }

/-- The GENERAL cue waits and its message is in flight. -/
def sendingGeneral (mode : LinkMode) (index : Nat) : State := sending general mode index (cueing [general] up)

/-- An ACTIVE notice. -/
def notice (id : Nat) (cls : NoticeClass) : Entry :=
  { Entry.reset with id := id, state := .active, cls := cls, dwell := 5, minutes := 1, text := [0x41], result := .ok }

/-- Notices, the first shown. -/
def noticing (es : List (Nat × Entry)) (s : State) : State :=
  { s with notices := { s.notices with
    entries := es.foldl (fun l e => l.set e.1 e.2) s.notices.entries
    shown := es.head?.map (·.1), rotIndex := (es.head?.map (·.1)).getD 7, dwellTimer := some 5 } }

/-- A fetch in progress for entry 0, FETCHING, with its read in flight. -/
def fetching (f : Fetch) (s : State) : State :=
  let r : FetchReq := { entry := 0, id := 3, cls := .info, dwell := 5, lifetime := 0, phrase := 0, chain := 0x8000 }
  ownRead f.addr .fetch { s with notices := { s.notices with
    entries := s.notices.entries.set 0 (reservedEntry 3), queue := [r], fetch := some f } }

/-- A mark. -/
def markOf (drop : Nat) (urgent : Bool) (seq : Nat) : Mark := { drop := drop, urgent := urgent, cause := none, seq := seq }

/-- The pending set replaced. -/
def marked (ms : List Mark) (s : State) : State := { s with display := { s.display with marks := ms } }

/-- The probe list replaced. -/
def probed (ps : List Probe) (s : State) : State := { s with display := { s.display with probes := ps } }

/-- The wall mode replaced. -/
def inMode (m : WallMode) (s : State) : State := { s with display := { s.display with mode := m } }

/-! ## Well-formed commands -/

theorem test_board_zero_refused : (Instr.footnoteExpiry 0 .reference).wellFormed = false := by decide
theorem test_board_33_refused : (Instr.footnoteExpiry 33 .reference).wellFormed = false := by decide
theorem test_slot_96_refused : (Instr.highlightExpiry 96 .pulse).wellFormed = false := by decide
theorem test_entry_8_refused : (Instr.noticeExpiry 8 .pulse).wellFormed = false := by decide
theorem test_in_range_accepted :
    (Instr.footnoteExpiry 32 .reference).wellFormed = true ∧ (Instr.highlightExpiry 95 .pulse).wellFormed = true ∧
      (Instr.noticeExpiry 7 .pulse).wellFormed = true := by decide

/-- The table gives its rows no bits, so no word spells a command. -/
theorem test_no_table_word : decodeTableWord 32 0x5A = none ∧ up.withFetchWord 32 0x5A = up := ⟨rfl, rfl⟩

/-! ## Bus commands -/

/-- Section 1.6: an access that arrives at an idle port is started. -/
theorem test_arrives_starts :
    (after (.processorAccessArrives 0x20 false 0 15) up).mem.port = .processor (readOf 0x80) := by decide +kernel

/-- R7: an access that writes a part-owned word never reaches the memory. -/
theorem test_arrives_protected :
    (after (.processorAccessArrives 0x20 true 0 15) up).mem.port = .idle := by decide +kernel

/-- R16: with both kinds waiting, the kind not started last goes first; after hard reset that is a read. -/
theorem test_arbiter_alternates :
    (after .arbiterStart { up with mem := { up.mem with
      reads := [{ addr := 0x40, source := .load }], writeBacks := [entry 0x80] } }).mem.port =
        .ownRead { addr := 0x40, source := .load } := by decide +kernel

/-- R17: the limit turns NORMAL into URGENT, and the own access goes before the processor. -/
theorem test_starvation_urgent :
    (after .starvationLimitReached { up with mem := { up.mem with
      counter := 32, waiting := some (readOf 0), writeBacks := [entry 0x8C] } }).mem.port =
        .writeBack 0x8C 0x00000002 := by decide +kernel

/-- R3: the memory's error indication goes back to the processor. -/
theorem test_pass_through_error :
    (after (.passThroughWrite true) (busWith (writeOf 0x90 5) up)).mem.answer = some (.writeDone true) := by
  decide +kernel

/-- R4: enabled lanes 0 and 2 take the data, lanes 1 and 3 stay. -/
theorem test_capture_merges :
    (after (.capturedWrite false) (busWith (access 0x04 true 0xAABBCCDD 5)
      { up with cmd := { up.cmd with staging := [0, 0x11223344, 0, 0, 0, 0, 0] } })).cmd.staging =
        [0, 0x11BB33DD, 0, 0, 0, 0, 0] := by decide +kernel

/-- R9: a status word is the part's, whatever memory returned; R38: a VACANT slot reads 0x007F0000. -/
theorem test_read_status :
    (after (.processorRead 0xDEADBEEF false) (busWith (readOf 0x1018) up)).mem.answer =
      some (.readDone 0x007F0000 false) := by decide +kernel

/-- R7: a dropped write completes without error and pends PROTECTED_WRITE, bit 5. -/
theorem test_protected_write :
    (after (.protectedWrite 0x20 7 15) up).att.pending = 0x20 ∧
      (after (.protectedWrite 0x20 7 15) up).mem.answer = some (.writeDone false) := by decide +kernel

/-- R172: the read returns the request flags and clears both flags of those classes only. -/
theorem test_event_word :
    (after (.eventWordRead false) (busWith (readOf 0x84) { up with att := { pending := 5, request := 1, mask := 1 } })).att =
      { pending := 4, request := 0, mask := 1 } := by decide +kernel

/-- R20: the fault word of a LOAD read at 0x40 reads 0x41 and is then clear. -/
theorem test_fault_word :
    (after (.faultWordRead false) (busWith (readOf 0x88) { up with mem := { up.mem with
      fault := some { addr := 0x40, write := false, source := .load, more := false } } })).mem.answer =
        some (.readDone 0x41 false) := by decide +kernel

/-- R171: unmasking a pending class requests it. -/
theorem test_mask_write :
    (after (.eventMaskWrite false) (busWith (writeOf 0x64 3) { up with att := { pending := 1, request := 0, mask := 0 } })).att =
      { pending := 1, request := 1, mask := 3 } := by decide +kernel

/-- R19: a failed own read is captured and pends MEMORY_FAULT, bit 6. -/
theorem test_own_read_fault :
    (after (.ownReadComplete 0 true) (ownRead 0x44 .load { up with part := { up.part with
      state := .starting, reading := .config [0] } })).mem.fault =
        some { addr := 0x44, write := false, source := .load, more := false } := by decide +kernel

/-- R174: the answer is kept and the next word of the block requested. -/
theorem test_own_read_next_word :
    (after (.ownReadComplete 9 false) (ownRead 0x44 .load { up with part := { up.part with
      state := .starting, reading := .config [0] } })).mem.reads = [{ addr := 0x48, source := .load }] := by
  decide +kernel

/-- R14: a word that changed since its write-back started rejoins at the tail. -/
theorem test_write_back_rejoins :
    (after (.writeBackComplete false) (writingBack 0x80 0 [{ offset := 0x80, changed := true }, entry 0x8C] up)).mem.writeBacks =
      [entry 0x8C, entry 0x80] := by decide +kernel

/-- R1: the strap base of straps 3 is 12 MiB, where the first configuration word is read (R174). -/
theorem test_release_reads_block :
    (after .hardResetRelease (after (.hardReset 3) up)).mem.reads = [{ addr := 0x00C00040, source := .load }] := by
  decide +kernel

/-- R38, R178: the words after hard reset. -/
theorem test_hard_reset_words :
    statusWord (after (.hardReset 3) up) 95 = 0x007F0000 ∧ summaryWord (after (.hardReset 3) up) = 0 := by
  decide +kernel

/-! ## Commits -/

/-- Section 12.3: 23:50 and 200 minutes late under roll minute 180 gives Ks 1250 and Ke 1450. -/
theorem test_commit_keys :
    (slotAt (after (.commit false) (committing 21 1430 0 4 200 validCommit (runningAt 86399))) 21).keys =
      some { ks := 1250, offset := 0, ke := 1450 } := by decide +kernel

/-- R25: minute 1440 is BAD_TIME, and the slot stays VACANT. -/
theorem test_commit_refused :
    let x := slotAt (after (.commit false) (committing 21 1440 0 4 200 validCommit up)) 21
    x.lastResult = .badTime ∧ x.state = .vacant := by decide +kernel

/-! ## Time -/

/-- The night roll of section 12.3, slot 55: the first train of the next operating day. -/
def firstTrain : State := withSlots [(55, slotWith (recordAt 200 .next 0 4) .scheduled)] [55] (runningAt 86399)

/-- Section 12.3: at 03:00:00 slot 55 has offset 0 and Ke 20, and DAY_ROLL, bit 13, is pended. -/
theorem test_second_rolls_the_day :
    (slotAt (after .internalReferenceSecond firstTrain) 55).keys = some { ks := 20, offset := 0, ke := 20 } ∧
      (after .internalReferenceSecond firstTrain).att.pending = 0x2000 := by decide +kernel

/-- Section 4.7: 90 s past its time a slot is EXPIRED and out of the row map. -/
theorem test_second_expires :
    (after .internalReferenceSecond (withSlots [(12, { slotWith (recordAt 179 .current 0 1) .departing with
      keys := some { ks := 1439, offset := -1, ke := -1 } })] [12] (runningAt 29))).rowMap = [] := by decide +kernel

/-- R49: a minute pulse at second 45 snaps forward, and locks. -/
theorem test_pulse_snaps :
    (after .masterPulse (withClock .freerun .masterMinute 105 up)).clock.t = 120 ∧
      (after .masterPulse (withClock .freerun .masterMinute 105 up)).clock.state = .locked := by decide +kernel

/-- R49: at second 29 it snaps back. -/
theorem test_pulse_snaps_back :
    (after .masterPulse (withClock .locked .masterMinute 89 up)).clock.t = 60 := by decide +kernel

/-- R50: without pulses the clock runs free, and CLOCK_CHANGE, bit 12, is pended. -/
theorem test_loss_frees :
    (after .lossTimerExpiry (withClock .locked .masterSecond 5 up)).clock.state = .freerun ∧
      (after .lossTimerExpiry (withClock .locked .masterSecond 5 up)).att.pending = 0x1000 := by decide +kernel

/-- A footnote of board 4 and a highlight of slot 21 with one second left. -/
def lastSecond : State :=
  { modSlot 21 (fun x => { x with highlight := some 1 }) (withSlots
      [(21, slotWith (recordAt 1430 .current 200 4) .scheduled)] [21] (runningAt 600)) with
    footnotes := (List.replicate 32 none).set 3 (some { slot := 21, toPlatform := 7, left := 1 }) }

/-- R81: the footnote runs out. -/
theorem test_footnote_runs_out : footnoteAt (after (.footnoteExpiry 4 .reference) lastSecond) 4 = none := by
  decide +kernel

/-- R82: the highlight runs out. -/
theorem test_highlight_runs_out : (slotAt (after (.highlightExpiry 21 .reference) lastSecond) 21).highlight = none := by
  decide +kernel

/-- Entry 1 is shown and has no lifetime, entry 2 has one of a minute. -/
def lastMinute : State := noticing [(1, { notice 8 .info with minutes := 0 }), (2, notice 9 .info)] (runningAt 59)

/-- R162: a lifetime of one minute runs out at the next minute event. -/
theorem test_notice_runs_out :
    (entryAt (after (.noticeExpiry 2 .reference) lastMinute) 2).result = .expired := by decide +kernel

/-- R54: the last second of a positive remainder advances by 2. -/
theorem test_slew_ends :
    let t := after (.slewComplete .reference) { runningAt 100 with clock := { (runningAt 100).clock with slew := 1 } }
    t.clock.t = 102 ∧ t.clock.slew = 0 := by decide +kernel

/-! ## Commands -/

/-- Section 12.1: 02:58:00 at T = 60 is refused with CROSSES_ROLL and -180. -/
theorem test_set_clock_crosses :
    (after (.setClock false) (commanding [0x0101, 0x00023A00, 0, 0, 0, 0, 0] (runningAt 60))).cmd.response =
      [0x06020101, 0, 0xFFFFFF4C, 0, 0, 0, 0] := by decide +kernel

/-- R56: a forced step within the minute, 03:01:30 at T = 60, changes T and marks the clock word. -/
theorem test_set_clock_step_marks :
    let t := after (.setClock false) (commanding [0x0101, 0x0103011E, 0, 0, 0, 0, 0] (runningAt 60))
    t.clock.t = 90 ∧ t.cmd.response = [0x00010101, 3, 30, 0, 0, 0, 0] ∧ t.mem.writeBacks.any (·.offset = 0x80) = true := by
  decide +kernel

/-- R58: MASTER_SECOND replaces INTERNAL, and a RUNNING clock becomes FREERUN. -/
theorem test_set_source :
    let t := after (.setSource false) (commanding [0x0201, 1, 0, 0, 0, 0, 0] (runningAt 60))
    t.clock.state = .freerun ∧ t.cmd.response = [0x00010201, 0, 0, 0, 0, 0, 0] := by decide +kernel

/-- R99: the response carries the previous mode. -/
theorem test_set_wall_mode :
    let t := after (.setWallMode false) (commanding [0x0301, 1, 0, 0, 0, 0, 0] up)
    t.display.mode = .hold ∧ t.cmd.response = [0x00010301, 0, 0, 0, 0, 0, 0] := by decide +kernel

/-- R105: nothing to send answers drop 255. -/
theorem test_step_frame_none :
    (after (.stepFrame false) (commanding [0x0401, 0, 0, 0, 0, 0, 0] (inMode .freeze up))).cmd.response =
      [0x00010401, 255, 0, 0, 0, 0, 0] := by decide +kernel

/-- R105: WRONG_STATE in RUN. -/
theorem test_step_frame_run :
    (after (.stepFrame false) (commanding [0x0401, 0, 0, 0, 0, 0, 0] up)).cmd.response =
      [0x03020401, 0, 0, 0, 0, 0, 0] := by decide +kernel

/-- Id 3, class INFO, dwell 5, lifetime 0, no phrase, chain 0x8000. -/
def postWords : List Word := [0x0501, 0x00050003, 0, 0x8000, 0, 0, 0]

/-- R154, R155: the lowest EMPTY entry is reserved and the chain's first word requested. -/
theorem test_post_notice :
    let t := after (.postNotice false) (commanding postWords up)
    (entryAt t 0).state = .fetching ∧ t.mem.reads = [{ addr := 0x8000, source := .fetch }] := by decide +kernel

/-- R152, R156: a post of an id whose chain was at the memory limit, at that limit again, changes words 0 and 3 and changes them
back: both are marked. -/
theorem test_post_notice_again :
    let s := modEntry 0 (fun e => { e with id := 3, result := .outOfRange, errAddr := 0x4000000 }) up
    let t := after (.postNotice false) (commanding [0x0501, 0x00050003, 0, 0x4000000, 0, 0, 0] s)
    entryAt t 0 = entryAt s 0 ∧ t.mem.writeBacks.any (·.offset = 0x100) = true ∧
      t.mem.writeBacks.any (·.offset = 0x10C) = true := by decide +kernel

/-- R161: a notice that is shown leaves, and nothing is shown any more. -/
theorem test_withdraw_notice :
    let t := after (.withdrawNotice false) (commanding [0x0601, 9, 0, 0, 0, 0, 0] (noticing [(2, notice 9 .info)] up))
    (entryAt t 2).result = .withdrawn ∧ t.notices.shown = none := by decide +kernel

/-- R140: a cue joins with enqueue order 0, and the depth is 1. -/
theorem test_issue_cue :
    (after (.issueCue false) (commanding [0x0701, 0x01230006, 0, 0, 0, 0, 0] up)).cmd.response =
      [0x00010701, 0, 1, 0, 0, 0, 0] := by decide +kernel

/-- R142: the class set SERVICE takes the GENERAL cue. -/
theorem test_clear_cues :
    (after (.clearCues false) (commanding [0x0801, 1, 0, 0, 0, 0, 0] (cueing [general] up))).cmd.response =
      [0x00010801, 1, 0, 0, 0, 0, 0] := by decide +kernel

/-- R112: one drop OFFLINE, one request. -/
theorem test_probe_drops :
    let t := after (.probeDrops false) (commanding [0x0901, 0, 0, 0, 0, 0, 0] (offline 70 up))
    t.cmd.response = [0x00010901, 1, 1, 0, 0, 0, 0] ∧ t.display.probes.map (·.drop) = [70] := by decide +kernel

/-- R177: RELOAD goes back to STARTING and reads the block. -/
theorem test_reload :
    let t := after (.reload false) (commanding [0x0A01, 0, 0, 0, 0, 0, 0] up)
    t.part.state = .starting ∧ t.mem.reads = [{ addr := 0x40, source := .load }] := by decide +kernel

/-- R169: drop 70 is bit 6 of result word 3. -/
theorem test_query :
    (after (.query false) (commanding [0x0B01, 0, 0, 0, 0, 0, 0] (offline 70 up))).cmd.response =
      [0x00010B01, 0, 0, 0x40, 0, 0, 0] := by decide +kernel

/-- R167: code 0x0C names no command. -/
theorem test_unknown_command :
    (after (.unknownCommand false) (commanding [0x0C01, 0, 0, 0, 0, 0, 0] up)).cmd.response =
      [0x01020C01, 0, 0, 0, 0, 0, 0] := by decide +kernel

/-! ## Display link -/

/-- R113, section 11.6: the PROBE frame of drop 70. -/
theorem test_frame_send_probe :
    (after .frameSend (probed [{ drop := 70, seq := 0 }] (offline 70 up))).display.frame.map (·.bytes) =
      some [0x46, 0x06, 0x00, 0x4C, 0x00] := by decide +kernel

/-- R107: the reply window opens after the last byte. -/
theorem test_frame_transmitted :
    windowIsOpen (after .frameTransmitted (after .frameSend (probed [{ drop := 70, seq := 0 }] (offline 70 up)))) = true := by
  decide +kernel

/-- R113: the ACK 46 A1 E7 00 brings drop 70 ONLINE and marks it. -/
theorem test_reply_probe :
    let t := after (.reply [0x46, 0xA1, 0xE7, 0x00]) (exchanging 70 .probe (offline 70 up))
    (dropAt t 70).online = true ∧ t.display.marks.map (·.drop) = [70] := by decide +kernel

/-- R107, R179: bytes after the check change nothing. -/
theorem test_reply_trailing_bytes :
    after (.reply [0x46, 0xA2, 0xE8, 0x00, 0x55, 0xAA]) (exchanging 70 .board up) =
      after (.reply [0x46, 0xA2, 0xE8, 0x00]) (exchanging 70 .board up) ∧
    windowIsOpen (after (.reply [0x46, 0xA2, 0xE8, 0x00, 0x55, 0xAA]) (exchanging 70 .board up)) = false := by decide +kernel

/-- R107: a wrong check is no reply. -/
theorem test_reply_bad_check :
    windowIsOpen (after (.reply [0x46, 0xA1, 0xE8, 0x00]) (exchanging 70 .board up)) = true := by decide +kernel

/-- R109: a first failure is counted and the drop re-marked. -/
theorem test_window_close :
    let t := after .replyWindowClose (exchanging 70 .board up)
    (dropAt t 70).failures = 1 ∧ t.display.marks.map (·.drop) = [70] := by decide +kernel

/-- R110: the third takes the drop OFFLINE, and DROP_OFFLINE, bit 8, is pended. -/
theorem test_drop_offline :
    let t := after (.dropOffline .noReply) (exchanging 70 .board (failing 70 2 up))
    (dropAt t 70).online = false ∧ t.att.pending = 0x100 := by decide +kernel

/-- R111: from pointer 127 the lowest OFFLINE drop is selected. -/
theorem test_probe_timer :
    let t := after .probeTimerExpiry (offline 5 (offline 70 { up with display := { up.display with probeTimer := some 30 } }))
    t.display.probes.map (·.drop) = [5] ∧ t.display.pointer = 5 := by decide +kernel

/-! ## Cue link -/

/-- R149: GENERAL, phrase 0x0123, presentation number 0. -/
theorem test_message_begins :
    (after .messageBegins (cueing [general] up)).cues.msg.map (·.bytes) =
      some [0xC5, 0x06, 0x03, 0x23, 0x01, 0x00, 0xE2] := by decide +kernel

/-- R144: a whole pulse with busy low ends the byte, and the next is given. -/
theorem test_acknowledge :
    (after (.acknowledgeInput .riseAndFall) (sendingGeneral .acknowledged 0)).cues.dataOut = 0x06 := by decide +kernel

/-- R144: the strobe ends when acknowledge rises. -/
theorem test_acknowledge_rise :
    (after (.acknowledgeInput .rise) (sendingGeneral .acknowledged 0)).cues.strobe = false := by decide +kernel

/-- R145: in mode BUSY a pulse that ends with busy low ends the byte. -/
theorem test_strobe_pulse_end :
    (after .strobePulseEnd (sendingGeneral .busy 1)).cues.dataOut = 0x03 := by decide +kernel

/-- R137, R146: the last byte presents; the record without repeats leaves and the link is in GAP. -/
theorem test_timed_spacing :
    let t := after .timedSpacingExpiry (sendingGeneral .timed 6)
    t.cues.queue = [] ∧ t.cues.link = .gap := by decide +kernel

/-- R147: SPEAKING ends when busy falls. -/
theorem test_busy_falls :
    (after .busyFalls { up with cues := { up.cues with busyIn := true, link := .speaking } }).cues.link = .gap := by
  decide +kernel

/-- R148: a cue that waits in READY behind busy starts the busy timer of 120 s. -/
theorem test_busy_rises :
    (after .busyRises (cueing [general] up)).cues.busyTimer = some 120 := by decide +kernel

/-- R139: a first abort is noted and the record stays. -/
theorem test_byte_limit :
    let t := after .byteLimitExpiry (sendingGeneral .acknowledged 2)
    t.cues.queue.map (·.aborts) = [1] ∧ t.cues.link = .gap := by decide +kernel

/-- R147: the gap ends in READY. -/
theorem test_gap_ends :
    (after .gapTimerExpiry { up with cues := { up.cues with link := .gap, gapTimer := some 4 } }).cues.link = .ready := by
  decide +kernel

/-- R148: the busy timer's end stalls the link, and CUE_LINK_CHANGE, bit 11, is pended. -/
theorem test_busy_timer :
    let t := after .busyTimerExpiry { up with cues := { up.cues with link := .speaking, busyTimer := some 120 } }
    t.cues.link = .stalled ∧ t.att.pending = 0x800 := by decide +kernel

/-- A repeat that waits until second 60 of the internal reference. -/
def repeating : Cue := { general with notBefore := some { time := 60, passed := false }, repeatCount := 1, repeatsLeft := 1 }

/-- R134: the record becomes eligible. -/
theorem test_not_before :
    let s := { cueing [repeating] up with refTime := 60 }
    s.cues.queue.any (eligible s) = false ∧
      (after (.notBeforePasses 0) s).cues.queue.any (eligible s) = true := by decide +kernel

/-- R163: from entry 2 the rotation goes on to entry 5, a DISRUPTION, and marks the ticker drop URGENT. -/
theorem test_ticker_dwell :
    let t := after .tickerDwellExpiry (noticing [(2, notice 9 .info), (5, notice 8 .disruption)] up)
    t.notices.shown = some 5 ∧ t.display.marks.map (fun m => (m.drop, m.urgent)) = [(49, true)] := by decide +kernel

/-! ## Witnesses: states and operands that meet the hypotheses of the statements -/

/-- The port does not carry a processor access. -/
theorem noProcessor {s : State} (h : inPort s = none) : ∀ b, s.mem.port ≠ .processor b := by
  intro b hb
  simp [inPort, hb] at h

/-- The command answers a next state. -/
def answers (c : Instr) (s : State) : Bool :=
  match exec c s with
  | .next _ => true
  | _ => false

theorem exec_after {c : Instr} {s : State} (h : answers c s = true) : exec c s = .next (after c s) := by
  unfold answers at h
  unfold after
  split at h
  · rename_i t ht
    rw [ht]
  · cases h

theorem witness_StepRunsTheFrontCommand :
    { up with pending := [.query false] }.pending = .query false :: [] ∧ up.pending = [] := ⟨rfl, rfl⟩

/-- A word that differs, one that was only noted, one whose write-back is in flight. -/
theorem witness_SettleMarksAndTends :
    0x8C ∈ writtenBack ∧ changedBy State.reset up 0x8C = true ∧ 0x80 ∈ writtenBack ∧
      changedBy up (noteIf true 0x80 up) 0x80 = false ∧ 0x80 ∈ (noteIf true 0x80 up).mem.noted.drop up.mem.noted.length ∧
      (settle State.reset (writingBack 0x8C 0 [entry 0x8C] up)).mem.writeBacks.head? =
        some { offset := 0x8C, changed := true } := by decide +kernel

/-- The classes where they meet. -/
theorem witness_WordClassesOfTheRegion :
    classOf 0x8C = .summary ∧ classOf 0x90 = .plain ∧ classOf 0xFC = .plain ∧ classOf 0x100 = .notice 0 0 ∧
      classOf 0x17C = .notice 7 3 ∧ classOf 0x180 = .plain ∧ classOf 0xFFC = .plain ∧ classOf 0x1000 = .record 0 0 ∧
      classOf 0x1BFC = .commit 95 ∧ classOf 0x1C00 = .plain ∧ classOf 0x3FFC = .plain := by decide +kernel

theorem witness_WindowFollowsTheSampledStraps :
    (0xBFFFFC : Nat) < (3 : BitVec 4).toNat * 0x400000 ∧ (3 : BitVec 4).toNat * 0x400000 + 0x4000 ≤ 0xC04000 ∧
      exec (.hardReset 3) up = .next (after (.hardReset 3) up) ∧
      exec (.gapTimerExpiry) up = .next (after .gapTimerExpiry up) :=
  ⟨by decide, by decide, exec_after (by decide +kernel), exec_after (by decide +kernel)⟩

/-- A read of the clock word that arrives. -/
def arrivalOk (s : State) : Prop :=
  s.resetPin = false ∧ s.mem.waiting = none ∧ (∀ b, s.mem.port ≠ .processor b) ∧
    (false = false ∨ (addrClass s.strap (4 * (0x20 : BitVec 30).toNat)).partOwned = false)

/-- Own accesses wait, with this counter and mode. -/
def ownWaits (counter : Nat) (mode : MemMode) (waiting : Option Access) : State :=
  { up with mem := { up.mem with counter := counter, mode := mode, waiting := waiting, writeBacks := [entry 0x80] } }

/-- A busy port; nothing waiting; own accesses waiting below the limit, at it, and in URGENT mode. -/
theorem witness_ArrivingAccessStartsOrWaits :
    (arrivalOk (ownRead 0x40 .load up) ∧ (ownRead 0x40 .load up).mem.port ≠ .idle) ∧
      (arrivalOk up ∧ up.mem.port = .idle ∧ ¬OwnWaits up) ∧
      (∀ x ∈ [(31, MemMode.normal), (32, .normal), (0, .urgent)],
        (ownWaits x.1 x.2 none).mem.port = .idle ∧ OwnWaits (ownWaits x.1 x.2 none)) ∧
      arrivalOk (ownWaits 31 .normal none) ∧ arrivalOk (ownWaits 32 .normal none) ∧
      arrivalOk (ownWaits 0 .urgent none) ∧
      (addrClass up.strap (4 * (0x24 : BitVec 30).toNat)).partOwned = false := by
  refine ⟨⟨⟨rfl, rfl, noProcessor rfl, .inl rfl⟩, by decide⟩, ⟨⟨rfl, rfl, noProcessor rfl, .inl rfl⟩, rfl, by decide⟩, ?_,
    ⟨rfl, rfl, noProcessor rfl, .inl rfl⟩, ⟨rfl, rfl, noProcessor rfl, .inl rfl⟩,
    ⟨rfl, rfl, noProcessor rfl, .inl rfl⟩, ?_⟩ <;> decide +kernel

/-- The first case of the table of R16 for each state of the two lists and of the last own access. -/
theorem witness_ArbiterFollowsItsTable :
    (∃ own : MemPath, own = { up.mem with port := .ownRead { addr := 0x40, source := .load }, lastOwn := .read }) ∧
      (∀ s ∈ [up, ownWaits 0 .normal none, ownWaits 0 .urgent none, ownWaits 31 .normal (some (readOf 0)),
          ownWaits 32 .normal (some (readOf 0)), ownWaits 0 .urgent (some (readOf 0)),
          { up with mem := { up.mem with waiting := some (readOf 0) } },
          { up with mem := { up.mem with reads := [{ addr := 0x40, source := .load }], writeBacks := [entry 0x80] } },
          { up with mem := { up.mem with
            reads := [{ addr := 0x40, source := .load }], writeBacks := [entry 0x80], lastOwn := .read } }],
        s.resetPin = false ∧ s.mem.port = .idle) ∧
      OwnWaits (ownWaits 31 .normal (some (readOf 0))) ∧ up.params.starvation = 32 ∧ ¬OwnWaits up ∧
      up.mem.waiting = none :=
  ⟨⟨_, rfl⟩, by decide +kernel⟩

theorem witness_ForwardedWritesCompleteAndAreCaptured :
    (∀ x ∈ [(writeOf 0x90 5, WordClass.plain), (writeOf 0x4000 5, .plain), (access 0x1C true 0 0, .trigger),
        (access 0x1BFC true 0 0, .commit 95), (writeOf 0x40 5, .config 0), (writeOf 0x60 5, .config 8),
        (writeOf 0x68 5, .config 10), (writeOf 0x7C 5, .config 15), (writeOf 0 5, .command 0), (writeOf 0x18 5, .command 6),
        (writeOf 0x1000 5, .record 0 0), (writeOf 0x1BF0 5, .record 95 4)], WriteAt (busWith x.1 up) x.1 x.2) ∧
      (access 0x1C true 0 0).lanes = 0 := by decide +kernel

theorem witness_ProtectedWriteIsDropped :
    up.resetPin = false ∧ up.mem.waiting = none ∧ inPort up = none ∧
      ∀ addr ∈ [0x8, 0x20, 0x21, 0x22, 0x23, 0x40, 0x6FE],
        (addrClass up.strap (4 * (BitVec.ofNat 30 addr).toNat)).partOwned = true := by decide +kernel

theorem witness_EventMaskWriteSetsRequests : WriteAt (busWith (writeOf 0x64 5) up) (writeOf 0x64 5) (.config 9) := by
  decide +kernel

theorem witness_ReadsReturnTheirWord :
    ∀ x ∈ [(readOf 0x90, WordClass.plain), (readOf 0x1018, .status 0), (readOf 0x84, .event), (readOf 0x88, .fault)],
      ReadAt (busWith x.1 up) x.1 x.2 := by decide +kernel

theorem witness_OwnAccessCompletes :
    (∀ b ∈ [true, false],
      (writingBack 0x80 7 [{ offset := 0x80, changed := b }, entry 0x8C] up).mem.port = .writeBack 0x80 7 ∧
      (writingBack 0x80 7 [{ offset := 0x80, changed := b }, entry 0x8C] up).mem.writeBacks =
        { offset := 0x80, changed := b } :: [entry 0x8C]) ∧
      (ownRead 0x40 .load up).mem.port = .ownRead { addr := 0x40, source := .load } ∧
      (ownRead 0x40 .load up).mem.reads = { addr := 0x40, source := .load } :: [] ∧
      (ownRead 0x40 .load up).resetPin = false ∧ (writingBack 0x80 7 [] up).resetPin = false := by decide +kernel

/-- A fetch at a stage: next address, address, text position, bytes to take. -/
def fetchAt (stage : FetchStage) (addr next pos left : Nat) : Fetch :=
  { addr := addr, stage := stage, count := 1, buf := [0x41], nextAddr := next, len := left, pos := pos, left := left
    more := false }

/-- The hypotheses of a fetch in progress. -/
def fetchOk (f : Fetch) (s : State) : Prop :=
  s.resetPin = false ∧ s.mem.port = .ownRead { addr := f.addr, source := .fetch } ∧
    s.mem.reads = [{ addr := f.addr, source := .fetch }] ∧ FetchQueueFits s ∧ s.notices.orphan = false ∧
    s.notices.fetch = some f ∧ ∃ r more, s.notices.queue = r :: more

theorem queueFits_fetching (f : Fetch) : FetchQueueFits (fetching f up) := by
  refine ⟨?_, ?_, ?_, rfl⟩
  · show (up.notices.entries.set 0 (reservedEntry 3)).length = 8
    decide +kernel
  · show ([0] : List Nat).Nodup
    decide
  · intro r h
    simp only [fetching, ownRead, List.mem_singleton] at h
    subst h
    show 0 < 8
    decide

theorem fetchOk_fetching (f : Fetch) : fetchOk f (fetching f up) :=
  ⟨rfl, rfl, rfl, queueFits_fetching f, rfl, rfl, _, _, rfl⟩

/-- The read of an abandoned fetch, a request waiting behind it. -/
def orphaned : State :=
  let s := ownRead 0x8000 .fetch up
  { s with notices := { s.notices with
    orphan := true
    queue := [{ entry := 1, id := 4, cls := .info, dwell := 5, lifetime := 0, phrase := 0, chain := 0x9000 }] } }

/-- Every stage of a fetch, and an abandoned one; the next word just below the memory limit and at it; a length of 0, one that fits
and one that does not, and a full buffer; the ends of a fragment in the order of the table of R158: no text at the chain's end or at 16
fragments, more than was taken, the end of the chain, 240 bytes, 16 fragments, a misaligned next address, one within the limit. -/
theorem witness_FetchTakesItsChain :
    (FetchQueueFits orphaned ∧ orphaned.resetPin = false ∧ orphaned.notices.orphan = true ∧
      orphaned.mem.port = .ownRead { addr := 0x8000, source := .fetch } ∧
      orphaned.mem.reads = { addr := 0x8000, source := .fetch } :: []) ∧
      (∀ f, fetchOk f (fetching f up)) ∧ up.params.memLimit * 0x10000 = 0x4000000 ∧
      (fetchAt (.descriptor 0) 0x3FFFFF8 0 0 0).addr + 4 < 0x4000000 ∧
      ¬(fetchAt (.descriptor 1) 0x3FFFFFC 0 0 0).addr + 4 < 0x4000000 ∧
      min 0 (240 - 1) = 0 ∧ min 239 (240 - 1) = 239 ∧ min 240 (240 - 1) < 240 ∧ min 4 (240 - 240) = 0 ∧
      (let done := fetchAt .text 0x8004 0 0x8004 0;
        (∀ g ∈ [{ done with buf := [] }, { done with buf := [], nextAddr := 0x9000, count := 16 }],
          g.buf = [] ∧ (g.nextAddr = 0 ∨ g.count = 16)) ∧
        ({ done with more := true }.buf ≠ [] ∧ { done with more := true }.more = true) ∧ (done.more = false ∧ done.nextAddr = 0) ∧
        (∀ g ∈ [{ done with nextAddr := 0x9000, count := 16 }, { done with nextAddr := 0x9001, buf := List.replicate 240 0 }],
          g.buf ≠ [] ∧ g.nextAddr ≠ 0 ∧ (g.buf.length = 240 ∨ g.count = 16)) ∧
        ∀ g ∈ [{ done with nextAddr := 0x9001, count := 15 }, { done with nextAddr := 0x9000, buf := List.replicate 239 0 }],
          g.nextAddr ≠ 0 ∧ g.buf.length ≠ 240 ∧ g.count ≠ 16) :=
  ⟨⟨⟨by decide, by decide, by decide, rfl⟩, rfl, rfl, rfl, rfl⟩, fetchOk_fetching, by decide +kernel⟩

/-- The configuration block that holds the defaults of R175, word by word (section 11.3). -/
def defaultBlock : List Word :=
  [0x01001018, 0x40313000, 0x0A0300B4, 0x000A005A, 0x002D012C, 0x00010505, 0x04000020, 0x000A1404, 0x003C0078, 0, 0, 0, 0,
    0, 0, 0]

/-- Section 11.3: the block gives the defaults, and nothing is clamped. -/
theorem test_default_block : paramsOf defaultBlock = Params.reset ∧ configClamped defaultBlock = false := by
  decide +kernel

/-- Section 11.3: a block of zeros clamps. -/
theorem test_zero_block : (paramsOf (List.replicate 16 0)).w = 8 ∧ configClamped (List.replicate 16 0) = true := by
  decide +kernel

/-- The configuration reading with these answers so far. -/
def configuring (answers : List Word) (configured : Bool) : State :=
  ownRead 0x40 .load { up with
    part := { state := .starting, reading := .config answers, clamped := false, configured := configured }
    cmd := { up.cmd with exec := some [0x0A01, 0, 0, 0, 0, 0, 0] } }

/-- The load at a word of a slot, the slot's staging words as given. -/
def loadingAt (i k : Nat) (staging : List Word) : State :=
  ownRead 0x1000 .load { setSlot i { Slot.reset with staging := staging } up with
    part := { state := .loading, reading := .table i k, clamped := false, configured := true }
    cmd := { up.cmd with exec := some [0x0A01, 0, 0, 0, 0, 0, 0] } }

/-- The drop table, the pending set and the probe list are sound; with no frame in flight, so is the display. -/
abbrev DropsSound (s : State) : Prop :=
  s.display.drops.length = 128 ∧ (∀ a < 128, (dropAt s a).role = roleOf s.params a ∧ (dropAt s a).fits = true) ∧
    (s.display.marks.map (·.drop)).Nodup ∧
    (∀ m ∈ s.display.marks, (dropAt s m.drop).online = true ∧ (dropAt s m.drop).role ≠ .none) ∧
    (s.display.probes.map (·.drop)).Nodup ∧
    (∀ p ∈ s.display.probes, (dropAt s p.drop).online = false ∧ (dropAt s p.drop).role ≠ .none)

theorem display_sound {s : State} (h : DropsSound s) (hf : s.display.frame = none) : DisplaySound s := by
  refine ⟨h.1, h.2.1, h.2.2.1, h.2.2.2.1, h.2.2.2.2.1, h.2.2.2.2.2, ?_⟩
  intro f hf'
  rw [hf] at hf'
  cases hf'

/-- The parameters after hard reset are sound under straps 0. -/
theorem params_sound {s : State} (h : s.params = Params.reset) (h' : s.strap = 0) : ParamsSound s := by
  unfold ParamsSound
  rw [h, h']
  unfold ParamsInRange LayoutValid Within
  decide +kernel

/-- What every own read of source LOAD in flight has. -/
theorem load_in_flight (s : State) (h : s.resetPin = false) :
    (ownRead 0x40 .load s).resetPin = false ∧
      (ownRead 0x40 .load s).mem.port = .ownRead { addr := 0x40, source := .load } ∧
      (ownRead 0x40 .load s).mem.reads = { addr := 0x40, source := .load } :: [] := ⟨h, rfl, rfl⟩

theorem witness_OwnReadAnswerIsTaken :
    (configuring [] false).part.reading = .config [] ∧ (configuring (List.replicate 14 0) false).part.reading =
      .config (List.replicate 14 0) ∧ (List.replicate 14 (0 : Word)).length < 15 ∧
      (∀ x ∈ [(0, 0), (0, 4), (95, 0), (95, 4)], (loadingAt x.1 x.2 (List.replicate 6 0)).resetPin = false ∧
        (loadingAt x.1 x.2 (List.replicate 6 0)).part.reading = .table x.1 x.2) ∧
      (configuring [] false).resetPin = false :=
  ⟨rfl, rfl, by decide, by decide +kernel, rfl⟩

theorem witness_FailedConfigurationHalts :
    (configuring [] false).part.reading = .config [] ∧ (List.replicate 15 (0 : Word)).length = 15 ∧
      ¬LayoutValid (configuring (List.replicate 15 0) true).strap (paramsOf (List.replicate 15 0 ++ [0])) ∧
      (configuring [] false).cmd.exec = some [0x0A01, 0, 0, 0, 0, 0, 0] ∧ up.cmd.exec = none := by
  refine ⟨rfl, rfl, ?_, rfl, rfl⟩
  unfold LayoutValid
  decide +kernel

/-- The block of the defaults, at the first reading and at a later one: the roll minute kept, and moved back and on past T = 0 on a set
clock; and link modes TIMED and OFF, which word 9 gives. -/
theorem witness_ValidConfigurationIsApplied :
    (∀ b, ∀ s ∈ [configuring (defaultBlock.take 15) b,
        { configuring (defaultBlock.take 15) b with clock := { up.clock with state := .running, t := 59, roll := 181 } },
        { configuring (defaultBlock.take 15) b with clock := { up.clock with state := .running, t := 86399, roll := 181 } },
        { configuring (defaultBlock.take 15) b with clock := { up.clock with state := .running, t := 86399, roll := 1439 } }],
      s.resetPin = false ∧ s.part.reading = .config (defaultBlock.take 15) ∧ s.clock.t < 86400 ∧ s.clock.roll < 1440 ∧
        s.mem.port = .ownRead { addr := 0x40, source := .load } ∧ s.mem.reads = { addr := 0x40, source := .load } :: []) ∧
      (defaultBlock.take 15).length = 15 ∧ (∀ b, DisplaySound (configuring (defaultBlock.take 15) b)) ∧
      LayoutValid (configuring (defaultBlock.take 15) true).strap (paramsOf (defaultBlock.take 15 ++ [0])) := by
  refine ⟨by decide +kernel, by decide, fun b => display_sound ?_ rfl, ?_⟩
  · cases b <;> decide +kernel
  · unfold LayoutValid
    decide +kernel

/-- A failed read, a commit word not valid, one refused by each check, one taken; slots 0, 94 and 95. -/
theorem witness_LoadOutcomeIsApplied :
    (∀ i ∈ [0, 94, 95], ∀ k ∈ [0, 5], let s := loadingAt i k (stagingOf 1439 0 4 5 0)
      s.resetPin = false ∧ s.part.reading = .table i k ∧ s.slots.length = 96 ∧ s.clock.roll < 1440) ∧
      flag (stagedWord ((stagingOf 1439 0 4 5 0).set 5 0) 5) 0 = false ∧
      flag (stagedWord ((stagingOf 1439 0 4 5 0).set 5 1) 5) 0 = true ∧
      rawMinute (stagingOf 1440 0 4 5 1) = 1440 ∧ rawMinute (stagingOf 1439 0 4 5 1) = 1439 ∧
      rawDay (stagingOf 1439 3 4 5 1) = 3 ∧ rawPlatform (stagingOf 1439 0 17 5 1) = 17 ∧ up.params.p = 16 ∧
      rawDestination ((stagingOf 1439 0 4 5 1).set 1 0) = 0 ∧
      ParamsSound (loadingAt 94 5 (stagingOf 1439 0 4 5 0)) ∧ DisplaySound (loadingAt 94 5 (stagingOf 1439 0 4 5 0)) := by
  refine ⟨by decide +kernel, by decide, by decide, by decide, by decide, by decide, by decide, by decide +kernel, by decide,
    params_sound (by decide +kernel) (by decide +kernel), display_sound (by decide +kernel) (by decide +kernel)⟩

/-- With a RELOAD in execution and without; the display and parameters sound. -/
theorem witness_LoadEndsWithAFullRefresh :
    (∀ k ∈ [0, 5], let s := loadingAt 95 k (stagingOf 1439 0 4 5 0)
      s.resetPin = false ∧ s.part.reading = .table 95 k ∧ s.slots.length = 96) ∧
      (dropAt (loadingAt 95 5 []) 64).role ≠ .none ∧ (dropAt (loadingAt 95 5 []) 64).online = true ∧
      (loadingAt 95 5 []).cmd.exec = some [0x0A01, 0, 0, 0, 0, 0, 0] ∧ up.cmd.exec = none ∧
      ParamsSound (loadingAt 95 5 (stagingOf 1439 0 4 5 0)) ∧ DisplaySound (loadingAt 95 5 (stagingOf 1439 0 4 5 0)) :=
  ⟨by decide +kernel, by decide +kernel, by decide +kernel, by decide +kernel, rfl,
    params_sound (by decide +kernel) (by decide +kernel), display_sound (by decide +kernel) (by decide +kernel)⟩

/-! ### Commits -/

/-- Outside RUNNING and LOADING, and in LOADING for a slot not yet loaded, no commit is considered. -/
theorem not_considered {s : State} {i : Nat} (h : s.part.state ≠ .running)
    (h' : s.part.state ≠ .loading ∨ loadedSlot s i = false) : ¬Considered s i := by
  rintro (hr | ⟨hl, j, k, hk, hj⟩)
  · exact h hr
  · rcases h' with h' | h'
    · exact h' hl
    · simp [loadedSlot, hk, hj] at h'

theorem considered_loaded {s : State} {i : Nat} (h : s.part.state = .loading) (j k : Nat)
    (hk : s.part.reading = .table j k) (hj : i < j) : Considered s i := .inr ⟨h, j, k, hk, hj⟩

/-- The part in LOADING, about to read slot j. -/
def loadingSlot (j : Nat) : State :=
  { up with part := { up.part with state := .loading, reading := .table j 0 } }

/-- The commit write of slot 21. -/
def commitWrite (commit : Word) : Access := writeOf (0x1000 + 32 * 21 + 28) commit

/-- Neither STARTING, HALTED nor LOADING at the slot itself; and each of the four checks. -/
theorem witness_CommitLeavesTheRecord :
    (∀ s ∈ [{ up with part := { up.part with state := .starting } }, { up with part := { up.part with state := .halted } },
        loadingSlot 21, up, loadingSlot 22],
      CommitAt (committing 21 1439 0 4 5 validCommit s) (commitWrite validCommit) 21) ∧
      ¬Considered (committing 21 1439 0 4 5 validCommit { up with part := { up.part with state := .starting } }) 21 ∧
      ¬Considered (committing 21 1439 0 4 5 validCommit (loadingSlot 21)) 21 ∧
      Considered (committing 21 1439 0 4 5 validCommit (loadingSlot 22)) 21 ∧
      ∀ x ∈ [(1440, 0, 16), (1439, 3, 16), (1439, 2, 17)],
        ¬Passes 16 (stagedCommit (committing 21 x.1 x.2.1 x.2.2 5 validCommit up) (commitWrite validCommit) 21) ∧
        Passes 16 (stagedCommit (committing 21 1439 2 16 5 validCommit up) (commitWrite validCommit) 21) := by
  refine ⟨by decide +kernel, not_considered (by decide) (.inl (by decide)),
    not_considered (by decide) (.inr (by decide)), considered_loaded rfl 22 0 rfl (by decide), ?_⟩
  unfold Passes
  decide +kernel

/-- An UNSET clock, and a RUNNING one on either side of each threshold of R28: minute, day, delay, service time. The record
lies at Ke 1259 (23:59 under roll minute 180). Reports quiet and not, delays on either side of the clamp, the record cancelled. -/
theorem witness_CommitTakesTheRecord :
    Considered (committing 21 1439 0 4 5 validCommit (loadingSlot 22)) 21 ∧
      ∀ s ∈ [up, runningAt 0, runningAt (60 * 1255), runningAt (60 * 1256), runningAt (60 * 1258 + 59), runningAt (60 * 1259),
          runningAt (60 * 1259 + 89), runningAt (60 * 1259 + 90), loadingSlot 22],
        ∀ x ∈ [(0, validCommit), (719, validCommit), (720, 0x00000903), (1023, validCommit), (4096, validCommit)],
          CommitAt (committing 21 1439 0 4 x.1 x.2 s) (commitWrite x.2) 21 ∧ s.clock.roll < 1440 ∧
          flag (stagedWord (stagedCommit (committing 21 1439 0 4 x.1 x.2 s) (commitWrite x.2) 21) 5) 0 = true ∧
          Passes 16 (stagedCommit (committing 21 1439 0 4 x.1 x.2 s) (commitWrite x.2) 21) := by
  refine ⟨considered_loaded rfl 22 0 rfl (by decide), ?_⟩
  unfold Passes
  decide +kernel

/-- A commit of slot 21 over an old record, with cues waiting: 23:59 under roll minute 180 is Ke 1259. -/
def reporting (old : Record) (platform delay t : Nat) (cs : List Cue) : State :=
  cueing cs (committing 21 1439 0 platform delay validCommit (withSlots [(21, slotWith old .scheduled)] [21] (runningAt t)))

/-- The four cues of slot 21. -/
def slotCues (r : Record) : List Cue :=
  [{ slotCue .platformChange 21 r 1 with fromPlatform := 4, platform := 9 }, { slotCue .delay 21 r 0 with delay := 5 },
    slotCue .boarding 21 r 0]

/-- A platform change with and without the cues it meets, at the horizon and beyond it; a reversion; a withdrawal; a cancellation and a
reinstatement; a delay at the threshold; 14 records waiting. -/
theorem witness_CommitReportSettlesTheCues :
    let r := recordAt 1439 .current 4 4
    ∀ s ∈ [reporting r 7 4 (60 * 1218) [], reporting r 7 4 (60 * 1217) (slotCues r), reporting r 4 4 (60 * 1230) (slotCues r),
        reporting { r with platform := 9 } 4 4 (60 * 1230) (slotCues r), reporting r 0 4 (60 * 1230) (slotCues r),
        reporting r 4 4100 (60 * 1230) (slotCues r),
        reporting { r with cancelled := true } 4 5 (60 * 1230) [slotCue .cancellation 21 r 1],
        reporting r 7 5 (60 * 1230) (List.replicate 14 general)],
      CommitAt s (commitWrite validCommit) 21 ∧ s.part.state = .running ∧ s.clock.roll < 1440 ∧ s.cues.queue.length + 2 ≤ 16 ∧
        flag (stagedWord (stagedCommit s (commitWrite validCommit) 21) 5) 0 = true ∧
        flag (stagedWord (stagedCommit s (commitWrite validCommit) 21) 5) 1 = false ∧
        Passes s.params.p (stagedCommit s (commitWrite validCommit) 21) := by
  unfold Passes
  decide +kernel

theorem witness_CommitVacatesTheSlot :
    CommitAt (committing 21 1439 0 4 5 0x0900 up) (commitWrite 0x0900) 21 ∧ Considered (committing 21 1439 0 4 5 0x0900 up) 21 ∧
      flag (stagedWord (stagedCommit (committing 21 1439 0 4 5 0x0900 up) (commitWrite 0x0900) 21) 5) 0 = false :=
  ⟨by decide +kernel, .inl rfl, by decide +kernel⟩

/-- HOLD, with drop 5 showing slot 21, which a commit moves from platform 4 to platform 7. -/
def heldChange : State :=
  inMode .hold (modDrop 5 (fun d => { d with shown := some (21, 4) })
    (reporting (recordAt 1439 .current 4 4) 7 4 (60 * 1230) []))

/-- A commit that places slot 21 in row 0 and on board 4, ROUTINE; and an URGENT one in HOLD, whose row mark goes to drop 5. -/
theorem witness_CommitMarksWhatItChanged :
    (∀ s ∈ [committing 21 1439 0 4 5 validCommit up, heldChange], CommitAt s (commitWrite validCommit) 21) ∧
      ParamsSound (committing 21 1439 0 4 5 validCommit up) ∧ ParamsSound heldChange ∧
      DisplaySound (committing 21 1439 0 4 5 validCommit up) ∧ DisplaySound heldChange ∧
      (let s := committing 21 1439 0 4 5 validCommit up;
        askedMarks false 21 s (after (.commit false) s) = [(0, false), (67, false)]) ∧
      UrgentChange (slotAt heldChange 21).applied (stagedRecord (stagedCommit heldChange (commitWrite validCommit) 21)) = true ∧
      askedMarks true 21 heldChange (after (.commit false) heldChange) = [(5, true), (67, true), (70, true)] := by
  refine ⟨by decide +kernel, params_sound (by decide +kernel) (by decide +kernel), params_sound (by decide +kernel) (by decide +kernel),
    display_sound (by decide +kernel) (by decide +kernel), display_sound (by decide +kernel) (by decide +kernel), ?_⟩
  decide +kernel

/-- The first commit of section 12.2, as far as the slot goes, platform 4 to 7, with the window open at the horizon: an empty queue, one
with one place left, a full one with a victim, and one without. -/
theorem witness_PlatformChangeIsAnnounced :
    let old := recordAt 1439 .current 4 4
    (∀ s ∈ [reporting old 7 4 (60 * 1218) [], reporting old 7 4 (60 * 1230) (List.replicate 15 general),
        reporting old 7 4 (60 * 1230) (List.replicate 16 general), reporting old 7 4 (60 * 1230) (List.replicate 16 (phraseCue .emergency 1 0))],
      let staging := stagedCommit s (commitWrite validCommit) 21
      let r := stagedRecord staging
      CommitAt s (commitWrite validCommit) 21 ∧ s.part.state = .running ∧ flag (stagedWord staging 5) 0 = true ∧
        flag (stagedWord staging 5) 1 = false ∧ Passes s.params.p staging ∧ (slotAt s 21).applied = some old ∧
        (slotAt s 21).state ≠ .vacant ∧ (slotAt s 21).state ≠ .expired ∧ old.cancelled = false ∧ r.cancelled = false ∧
        old.platform ≠ 0 ∧ r.platform ≠ 0 ∧ old.platform ≠ r.platform ∧ old.platform ≤ s.params.p ∧ s.params.p ≤ 32 ∧
        s.footnotes.length = 32 ∧ s.clock.roll < 1440 ∧
        windowAt s.params s.clock r (derivedKeys s.clock.roll r).ke = true ∧ r.delay < s.params.threshold ∧
        told 21 s ≠ r.platform ∧ ∀ c ∈ s.cues.queue, c.slot ≠ some 21) ∧
      (let s := reporting old 7 4 (60 * 1230) (List.replicate 16 general)
       let v : Cue := { general with order := 15 }
       s.cues.queue.length = 16 ∧ v ∈ s.cues.queue ∧ v.rank < (madeCue .platformChange 21 old 4 0 1 0).rank ∧
         ∀ e ∈ s.cues.queue, e ≠ v → v.rank = e.rank ∧ (s.cues.next - v.order).toNat < (s.cues.next - e.order).toNat) ∧
      (let s := reporting old 7 4 (60 * 1230) (List.replicate 16 (phraseCue .emergency 1 0))
       s.cues.queue.length = 16 ∧ ∀ e ∈ s.cues.queue, (madeCue .platformChange 21 old 4 0 1 0).rank ≤ e.rank) := by
  unfold Passes
  decide +kernel

theorem witness_HardResetSetsEveryUnit : State.reset.resetPin = true := rfl

/-! ### Time -/

/-- No tick: UNSET, LOCKED to a second master, LOCKED to a minute master at second 59. A tick: the others, up to the roll. -/
theorem witness_ReferenceSecondIsATick :
    (∀ s ∈ [up, withClock .locked .masterSecond 5 up, withClock .locked .masterMinute 59 up,
        withClock .locked .masterMinute 58 up, withClock .freerun .masterSecond 86399 up, runningAt 86399],
      s.resetPin = false ∧ s.clock.t < 86400) ∧
      up.clock.state = .unset ∧ (withClock .locked .masterMinute 59 up).clock.t % 60 = 59 ∧
      (withClock .locked .masterMinute 58 up).clock.t % 60 ≠ 59 ∧ (runningAt 86399).clock.state = .running ∧
      86400 ≤ (runningAt 86399).clock.t + tickSeconds (runningAt 86399).clock := by decide +kernel

/-- The second-mode and minute-mode cases, and T on either side of the last half minute. -/
theorem witness_MasterPulsesLockTheClock :
    (∀ s ∈ [up, runningAt 5, withClock .locked .masterSecond 86399 up, withClock .freerun .masterSecond 5 up,
        withClock .locked .masterMinute 86369 up, withClock .freerun .masterMinute 86370 up],
      s.resetPin = false ∧ s.clock.t < 86400) ∧
      (withClock .locked .masterSecond 86399 up).clock.source = .masterSecond ∧
      (withClock .freerun .masterMinute 86370 up).clock.source = .masterMinute ∧
      86400 ≤ (withClock .locked .masterSecond 86399 up).clock.t + tickSeconds (withClock .locked .masterSecond 86399 up).clock ∧
      86370 ≤ (withClock .freerun .masterMinute 86370 up).clock.t ∧
      (withClock .locked .masterSecond 86399 up).clock.loss.isSome = true := by decide +kernel

/-- One second left of a footnote and a highlight, one minute of a notice, one of a remainder. -/
theorem witness_TickEndsWhatRunsOut :
    pendingAdvance .reference lastSecond = some { old := 600, new := 601, roll := false, leaving := false } ∧
      footnoteAt lastSecond 4 = some { slot := 21, toPlatform := 7, left := 1 } ∧
      (slotAt lastSecond 21).highlight = some 1 ∧ lastSecond.resetPin = false ∧
      (∀ adv ∈ pendingAdvance .reference lastSecond, 1 ≤ adv.seconds) ∧
      (entryAt lastMinute 2).state = .active ∧ (entryAt lastMinute 2).minutes = 1 ∧
      (∀ adv ∈ pendingAdvance .reference lastMinute, adv.minuteEvent = true ∧ 1 ≤ adv.minutes) ∧
      (pendingAdvance .reference lastMinute).isSome = true ∧
      ({ runningAt 100 with clock := { (runningAt 100).clock with slew := 1 } }.clock.event .reference).map (fun e : Clock × Bool => e.1.slew) =
        some 0 := by decide +kernel

/-- A slot forced to EXPIRED by the roll, one rebased, one that expires with the tick. -/
def rolling : State :=
  withSlots [(3, { slotWith (recordAt 1430 .previous 700 2) .departing with
      keys := some { ks := 1250, offset := -1, ke := 510 } }),
    (55, slotWith (recordAt 200 .next 0 4) .scheduled)] [3, 55] (runningAt 86399)

/-- The day roll of `rolling`; a slew of 2 seconds that wraps and a tick withheld; FREERUN, and LOCKED to a minute master before second
59; a second pulse; a minute pulse that snaps back, on, and out of the last minute. -/
theorem witness_SecondEventMovesSlots :
    (∀ s ∈ [rolling, { rolling with clock := { rolling.clock with t := 86398, slew := 1 } },
        { rolling with clock := { rolling.clock with slew := -1, holdNext := true } }, withClock .freerun .masterSecond 59 up,
        withClock .locked .masterMinute 58 up],
      s.resetPin = false ∧ s.clock.t < 86400 ∧ (s.clock.state = .running ∨ s.clock.state = .freerun ∨
        s.clock.state = .locked ∧ s.clock.source = .masterMinute ∧ s.clock.t % 60 ≠ 59)) ∧
      (∀ x ∈ [(ClockSource.masterSecond, 86399), (.masterMinute, 89), (.masterMinute, 90), (.masterMinute, 86369), (.masterMinute, 86370)],
        let s := withClock .locked x.1 x.2 up
        s.resetPin = false ∧ s.clock.t < 86400 ∧ s.clock.state = .locked ∧ s.clock.source = x.1) ∧
      86400 ≤ rolling.clock.t + tickSeconds rolling.clock ∧
      (slotAt rolling 3).advanced true 1 rolling.params { rolling.clock with t := 0 } =
        { slotAt rolling 3 with state := .expired, announced := 0 } ∧
      ((slotAt rolling 55).advanced true 1 rolling.params { rolling.clock with t := 0 }).keys =
        some { ks := 20, offset := 0, ke := 20 } := by
  decide +kernel

/-! ### Commands -/

/-- SET CLOCK of a time, force-step or not. -/
def settingClock (time : Word) (s : State) : State := commanding [0x0101, time, 0, 0, 0, 0, 0] s

/-- The target and the correction of a SET CLOCK in flight. -/
def targetOf (s : State) : Nat := targetT s.clock.roll (clockTargetOf s.cmd.staging)

/-- The correction. -/
def correctionOf (s : State) : Int := correction s.clock.t (targetOf s)

/-- A value out of range; UNSET; a slew of 120 s and of -120 s; nothing to do; 121 s back across 0; to T = 0; 12 hours on
across the roll. Civil 03:00:00 is T = 0. -/
theorem witness_SetClockSetsSlewsOrSteps :
    (∀ s ∈ [settingClock 0x00180000 up, settingClock 0x00173C00 up, settingClock 0x0017003C up, settingClock 0x00030000 up,
        settingClock 0x00030200 (runningAt 0), settingClock 0x00030000 (runningAt 120), settingClock 0x01030000 (runningAt 0),
        settingClock 0x00023A3B (runningAt 60), settingClock 0x00030000 (runningAt 121), settingClock 0x01030000 (runningAt 86399)],
      TakenAt s triggerWrite 1 ∧ s.clock.t < 86400) ∧
      (clockTargetOf (settingClock 0x00180000 up).cmd.staging).hh = 24 ∧
      (clockTargetOf (settingClock 0x00173C00 up).cmd.staging).mm = 60 ∧
      (clockTargetOf (settingClock 0x0017003C up).cmd.staging).ss = 60 ∧
      correctionOf (settingClock 0x00030200 (runningAt 0)) = 120 ∧
      correctionOf (settingClock 0x00030000 (runningAt 120)) = -120 ∧
      correctionOf (settingClock 0x01030000 (runningAt 0)) = 0 ∧
      (60 : Int) + correctionOf (settingClock 0x00023A3B (runningAt 60)) = -61 ∧
      (121 : Int) + correctionOf (settingClock 0x00030000 (runningAt 121)) = 0 ∧
      (86399 : Int) + correctionOf (settingClock 0x01030000 (runningAt 86399)) = 86400 := by decide +kernel

/-- A command with its parameter word 1 in flight. -/
def withCode (code : Nat) (word : Word) (s : State) : State :=
  commanding [BitVec.ofNat 32 (256 * code + 1), word, 0, 0, 0, 0, 0] s

theorem witness_SetSourceReplacesTheSource :
    ∀ x ∈ [(3, up), (0, up), (1, up), (2, runningAt 5)], TakenAt (withCode 2 (BitVec.ofNat 32 x.1) x.2) triggerWrite 2 := by
  decide +kernel

/-- HOLD, the drop of row 0 showing slot 5 where the row map has nothing. -/
def held : State :=
  inMode .hold (modDrop 0 (fun d => { d with shown := some (5, 1) }) up)

theorem witness_SetWallModeReplacesTheMode :
    (∀ x ∈ [(3, up), (2, up), (1, up), (0, held), (2, held), (1, held)],
      TakenAt (withCode 3 (BitVec.ofNat 32 x.1) x.2) triggerWrite 3) ∧
      0 < held.params.w ∧ (dropAt held (held.params.firstWall + 0)).shown.map (·.1) ≠ held.rowMap[0]? ∧
      (dropAt held (held.params.firstWall + 0)).online = true ∧
      (dropAt held (held.params.firstWall + 0)).role ≠ .none := by decide +kernel

theorem witness_StepFrameSendsOneFrame :
    (∀ s ∈ [up, exchanging 5 .row (inMode .hold up), inMode .freeze up, marked [markOf 3 false 0] (inMode .hold up),
        marked [markOf 3 false 0, markOf 4 true 1] (inMode .freeze up)], TakenAt (withCode 4 0 s) triggerWrite 4) ∧
      (exchanging 5 .row (inMode .hold up)).display.frame ≠ none ∧ (inMode .freeze up).display.frame = none ∧
      (let ms := (marked [markOf 3 false 0, markOf 4 true 1] up).display.marks;
        (ms.find? (·.urgent)).or ms.head? = some (markOf 4 true 1)) ∧
      (let ms := (marked [markOf 3 false 0] up).display.marks;
        (ms.find? (·.urgent)).or ms.head? = some (markOf 3 false 0)) := by decide +kernel

/-- A POST NOTICE of these words 1 to 3 in flight. -/
def posting (w1 w2 w3 : Nat) (s : State) : State :=
  commanding [0x0501, BitVec.ofNat 32 w1, BitVec.ofNat 32 w2, BitVec.ofNat 32 w3, 0, 0, 0] s

/-- Entry 0 FETCHING with id 3, its fetch in progress; so many requests more. -/
def fetchBusy (more : List FetchReq) : State :=
  let s := fetching (Fetch.begin 0x8000) up
  { s with notices := { s.notices with queue := s.notices.queue ++ more } }

/-- A request of entry 1, which is FETCHING with id 4. -/
def secondRequest : FetchReq :=
  { entry := 1, id := 4, cls := .info, dwell := 5, lifetime := 0, phrase := 0, chain := 0x9000 }

/-- Both places of the fetch queue taken. -/
def fetchFull : State := modEntry 1 (fun _ => reservedEntry 4) (fetchBusy [secondRequest])

/-- Eight notices, of ids 10 to 17. -/
def tableFull : State := noticing ((List.range 8).map fun i => (i, notice (10 + i) .info)) up

set_option synthInstance.maxSize 2000 in
/-- The notice tables of the witnesses are sound. -/
theorem table_sound :
    ∀ s ∈ [up, fetchBusy [], fetchFull, tableFull, noticing [(0, notice 10 .info)] up, noticing [(2, notice 9 .info)] up,
      noticing [(2, notice 9 .info), (5, notice 8 .info)] up], NoticeTableSound s := by
  unfold NoticeTableSound
  decide +kernel

/-- With `table_sound`. Refusals: dwell 1 and 61, lifetime 1441, phrase 4096, chain 0 and 2, class 3, id 0; and at their limits none. -/
theorem witness_PostNoticeRefusals :
    (∀ s ∈ [up, fetchBusy [], fetchFull, tableFull],
      TakenAt (posting 0x00050003 0 0x8000 s) triggerWrite 5 ∧ s.notices.entries.length = 8) ∧
      (∀ x ∈ [(0x00010003, 0, 0x8000), (0x003D0003, 0, 0x8000), (0x00050003, 1441, 0x8000), (0x00050003, 0x10000000, 0x8000),
          (0x00050003, 0, 0), (0x00050003, 0, 2), (0x00050303, 0, 0x8000), (0x00050000, 0, 0x8000)],
        (postOf (posting x.1 x.2.1 x.2.2 up).cmd.staging).bad = true) ∧
      (∀ x ∈ [(0x00020001, 1440, 4), (0x003C02FF, 0x0FFF0000, 0xFFFFFFFC)],
        (postOf (posting x.1 x.2.1 x.2.2 up).cmd.staging).bad = false) ∧
      (entryAt (fetchBusy []) 0).id = 3 ∧ (entryAt (fetchBusy []) 0).state = .fetching ∧
      fetchFull.notices.queue.length = 2 ∧ (∀ i < 8, (entryAt tableFull i).state ≠ .empty ∧ (entryAt tableFull i).id ≠ 3) := by
  decide +kernel

/-- With `table_sound`: a new entry and a replacement, on an idle unit with the chain below the memory limit and at it, and behind another
fetch. -/
theorem witness_PostNoticeReservesAndFetches :
    (∀ x ∈ [(0x00050003, up), (0x0005000A, noticing [(0, notice 10 .info)] up), (0x00050005, fetchBusy [])],
      ∀ chain ∈ [0x3FFFFFC, 0x4000000],
        TakenAt (posting x.1 0 chain x.2) triggerWrite 5 ∧ x.2.notices.entries.length = 8 ∧
          x.2.notices.queue.length < 2) ∧
      up.params.memLimit * 0x10000 = 0x4000000 ∧ (entryAt up 0).state = .empty ∧
      (entryAt (noticing [(0, notice 10 .info)] up) 0).state = .active ∧ up.notices.queue = [] ∧
      up.notices.fetch = none ∧ up.notices.orphan = false ∧ (fetchBusy []).notices.fetch.isSome = true := by
  decide +kernel

/-- What an advance selects: the next above, around the end, and what is left. -/
theorem selects_next :
    Selects (noticing [(2, notice 9 .info), (5, notice 8 .info)] up) 5 ∧
      Selects (noticing [(5, notice 9 .info), (2, notice 8 .info)] up) 2 ∧
      Selects (modEntry 2 (fun _ => Entry.reset) (noticing [(2, notice 9 .info), (5, notice 8 .info)] up)) 5 := by
  unfold Selects
  exact ⟨by decide +kernel, by decide +kernel, by decide +kernel⟩

/-- With `table_sound`, `rotation_sound` and `selects_next`: no entry with the id; an entry not shown; the entry shown with another to select, and with none; a fetch in progress. -/
theorem witness_WithdrawNoticeEmptiesTheEntry :
    (∀ s ∈ [up, noticing [(2, notice 9 .info)] up, noticing [(2, notice 9 .info), (5, notice 8 .info)] up, fetchFull],
      TakenAt (withCode 6 9 s) triggerWrite 6 ∧ TakenAt (withCode 6 8 s) triggerWrite 6) ∧
      (∀ i < 8, (entryAt up i).state = .empty) ∧ (entryAt (noticing [(2, notice 9 .info)] up) 2).id = 9 ∧
      (noticing [(2, notice 9 .info)] up).notices.shown = some 2 ∧
      fetchFull.notices.fetch.isSome = true ∧ (entryAt fetchFull 0).state ≠ .empty := by
  decide +kernel

/-- The rotation of a table with an ACTIVE entry. -/
theorem rotation_sound : RotationSound (noticing [(2, notice 9 .info), (5, notice 8 .info)] up) := by
  refine ⟨?_, by decide +kernel, by decide +kernel⟩
  intro i h
  have h' : (some 2 : Option Nat) = some i := h
  cases h'
  decide +kernel

/-- With `selects_next`: the dwell timer running, an entry ACTIVE, and none. -/
theorem witness_DwellExpiryAdvancesTheRotation :
    (∀ s ∈ [noticing [(2, notice 9 .info), (5, notice 8 .info)] up, noticing [(5, notice 9 .info), (2, notice 8 .info)] up,
        noticing [(2, Entry.reset)] up], s.resetPin = false ∧ s.notices.dwellTimer.isSome = true) ∧
      ∀ n < 8, (entryAt (noticing [(2, Entry.reset)] up) n).state ≠ .active := by decide +kernel

/-- Sixteen GENERAL cues. -/
def queueFull : State := cueing (List.replicate 16 general) up

/-- Refusals: kind 5 and 8, 4 repeats, phrase 0 and 4096. A place left; a victim; none for another GENERAL cue. -/
theorem witness_IssueCueJoinsDisplacesOrDrops :
    (∀ w ∈ [0x01230005, 0x01230008, 0x01230406, 0x00000006, 0x10000006, 0x0FFF0306, 0x00010007],
      TakenAt (withCode 7 (BitVec.ofNat 32 w) up) triggerWrite 7 ∧ TakenAt (withCode 7 (BitVec.ofNat 32 w) queueFull) triggerWrite 7) ∧
      (∀ w ∈ [0x01230005, 0x01230008, 0x01230406, 0x00000006, 0x10000006],
        issuedCue (withCode 7 (BitVec.ofNat 32 w) up).cmd.staging = none) ∧
      (∀ w ∈ [0x0FFF0306, 0x00010007], (issuedCue (withCode 7 (BitVec.ofNat 32 w) up).cmd.staging).isSome = true) ∧
      up.cues.queue.length < 16 ∧ queueFull.cues.queue.length = 16 ∧
      { general with order := 15 } ∈ queueFull.cues.queue ∧
      (∀ e ∈ queueFull.cues.queue, e ≠ { general with order := 15 } →
        ageOf queueFull.cues.next 15 < ageOf queueFull.cues.next e.order) ∧
      ∀ e ∈ queueFull.cues.queue, general.rank ≤ e.rank := by decide +kernel

theorem witness_ClearCuesRemovesTheClasses :
    TakenAt (withCode 8 1 (cueing [general] (sendingGeneral .timed 0))) triggerWrite 8 := by decide +kernel

/-- No drop OFFLINE, one above the pointer, and one not above it. -/
theorem witness_ProbesAreRequested :
    TakenAt (withCode 9 0 (offline 70 up)) triggerWrite 9 ∧
      (let s := { up with display := { up.display with probeTimer := some 30, pointer := 69 } };
        (s.resetPin = false ∧ s.display.probeTimer.isSome = true) ∧
        (∀ d < 128, ¬((dropAt s d).role ≠ .none ∧ (dropAt s d).online = false)) ∧
        (dropAt (offline 70 s) 70).online = false ∧ (dropAt (offline 70 s) 70).role ≠ .none ∧
        s.display.pointer < 70 ∧ (dropAt (offline 69 s) 69).online = false ∧
        ∀ b < 128, (dropAt (offline 64 s) b).role ≠ .none → (dropAt (offline 64 s) b).online = false → b ≤ 69 ∧ 64 ≤ b) := by
  decide +kernel

/-- The part in another state. -/
def inState (p : PartState) : State := { up with part := { up.part with state := p } }

theorem witness_QueryAnswersInEveryState :
    ∀ p ∈ [PartState.starting, .loading, .running, .halted],
      TriggerAt (withCode 11 0 (inState p)) triggerWrite 11 ∧ (inState p).cmd.exec = none ∧
        (inState p).rowMap.length ≤ 96 ∧ (inState p).display.marks.length ≤ 128 ∧
        (inState p).cues.queue.length ≤ 16 := by decide +kernel

/-- Codes 0, 12 and 255 name no command; a command in execution. -/
theorem witness_CommandsOutOfTurnAreAnswered :
    (∀ p ∈ [PartState.starting, .loading, .running, .halted],
      TriggerAt (withCode 10 0 (inState p)) triggerWrite 10 ∧
        ∀ code ∈ [1, 2, 3, 4, 5, 6, 7, 8, 9], TriggerAt (withCode code 0 (inState p)) triggerWrite code) ∧
      (∀ code ∈ [0, 12, 255], TriggerAt (withCode code 0 up) triggerWrite code) ∧ up.cmd.exec = none ∧
      ({ up with cmd := { up.cmd with exec := some [] } }).cmd.exec = some [] := by decide +kernel

/-! ### Display link -/

/-- A STEP FRAME in execution. -/
def stepping (p : StepPhase) (s : State) : State :=
  { s with
    display := { s.display with step := p }
    cmd := { s.cmd with exec := some [0x0401, 0, 0, 0, 0, 0, 0] } }

theorem witness_FrameSendFollowsTheMode :
    (let s := marked [markOf 3 false 0, markOf 4 true 1] (probed [{ drop := 70, seq := 2 }] up);
      s.resetPin = false ∧ s.display.frame = none ∧ s.display.step ≠ .waiting ∧ s.display.mode ≠ .freeze ∧
        s.display.marks.find? (fun m => m.urgent) = some (markOf 4 true 1) ∧
        ∀ p ∈ s.display.probes.head?, (markOf 4 true 1).seq < p.seq) ∧
      (let s := marked [markOf 4 true 3] (probed [{ drop := 70, seq := 2 }] up);
        s.display.probes.head? = some { drop := 70, seq := 2 } ∧
          ∀ m ∈ s.display.marks.find? (fun m => m.urgent), 2 ≤ m.seq) ∧
      (let s := marked [markOf 3 false 0] up;
        s.display.mode = .run ∧ s.display.marks.find? (fun m => m.urgent) = none ∧ s.display.probes.head? = none ∧
          s.display.marks.find? (fun m => !m.urgent) = some (markOf 3 false 0)) ∧
      (let s := inMode .hold (marked [markOf 3 false 0] up);
        s.display.probes.head? = none ∧ s.display.marks.find? (fun m => m.urgent) = none) ∧
      (let s := after .frameSend (probed [{ drop := 70, seq := 0 }] (offline 70 up));
        s.resetPin = false ∧ s.display.frame = some (probeFrame 70) ∧ (probeFrame 70).window = false) ∧
      (∀ s ∈ [stepping .waiting (marked [markOf 3 false 0] (inMode .freeze up)), stepping .waiting (inMode .run up)],
        s.resetPin = false ∧ s.display.frame = none ∧ s.display.step = .waiting ∧
          s.cmd.exec = some [0x0401, 0, 0, 0, 0, 0, 0]) ∧
      (let ms := (marked [markOf 3 false 0] up).display.marks
       (ms.find? fun m => m.urgent).or (ms.find? fun m => !m.urgent) = some (markOf 3 false 0)) ∧
      up.display.marks = [] := by
  decide +kernel

/-- A slot of the row map: minute 1439 with 5 minutes of delay, platform 4. -/
def mapped : State := withSlots [(21, slotWith (recordAt 1439 .current 5 4) .scheduled)] [21] (runningAt 600)

theorem rowMap_sound : RowMapSound mapped := by
  refine ⟨by decide +kernel, by decide +kernel, by decide +kernel, ?_, by decide +kernel⟩
  intro i
  constructor
  · intro h
    have h' : i ∈ [21] := h
    simp only [List.mem_singleton] at h'
    subst h'
    decide +kernel
  · rintro ⟨h1, h2⟩
    have key : ∀ i < 96, (slotAt mapped i).state.active = true → i ∈ [21] := by decide +kernel
    exact key i h1 h2

/-- A slot with a record, the four roles, boards 1 and 16; HOLD with `rowMap_sound`. -/
theorem witness_FramesShowTheirRole :
    (slotAt mapped 21).applied = some (recordAt 1439 .current 5 4) ∧ (slotAt mapped 21).keys.isSome = true ∧
      (slotContent mapped 21).isSome = true ∧ (dropAt mapped 0).role = .wall 0 ∧ mapped.display.mode ≠ .hold ∧
      RowMapSound (inMode .hold mapped) ∧ (inMode .hold mapped).display.mode = .hold ∧
      (dropAt mapped 64).role = .board 1 ∧ (dropAt mapped 79).role = .board 16 ∧ (dropAt mapped 48).role = .clock ∧
      (dropAt mapped 49).role = .ticker :=
  ⟨by decide +kernel, by decide +kernel, by decide +kernel, by decide +kernel, by decide +kernel, rowMap_sound, rfl, by decide +kernel,
    by decide +kernel, by decide +kernel, by decide +kernel⟩

/-- The frame of an exchange. -/
def frameTo (drop : Nat) (kind : FrameKind) (discard : Bool) : Frame :=
  { drop := drop, kind := kind, shown := none, urgent := false, cause := none, forStep := false, discard := discard
    bytes := [], window := true }

/-- A probe, a frame to a wall row, to a board and to no role, one to be discarded; failure counts 1 and 2; an exchange of STEP FRAME,
and one with a STEP FRAME waiting. -/
theorem witness_ExchangeEndsByItsOutcome :
    (∀ x ∈ [(70, FrameKind.probe), (0, .row), (70, .board), (127, .blank)],
      let s := exchanging x.1 x.2 up;
      s.resetPin = false ∧ s.display.frame = some (frameTo x.1 x.2 false) ∧ s.display.step = .none ∧ x.1 < 128 ∧
        s.display.drops.length = 128) ∧
      (frameTo 0 .row true).discard = true ∧ (dropAt (exchanging 0 .row up) 0).role = .wall 0 ∧
      (dropAt (exchanging 70 .board up) 70).role = .board 7 ∧
      (dropAt (exchanging 70 .board (failing 70 1 up)) 70).failures < 2 ∧
      2 ≤ (dropAt (exchanging 70 .board (failing 70 2 up)) 70).failures ∧
      (∀ f ∈ (after .frameSend (probed [{ drop := 70, seq := 0 }] (offline 70 up))).display.frame, f.window = false) ∧
      up.display.frame = none ∧
      (∀ b ∈ [[0x46, 0xA3, 0xE9, 0x00], [0x46, 0xA1, 0xE7], [0x46, 0xA1, 0xE7, 0x01], [0, 0x46, 0xA1, 0xE7, 0x00]],
        (b : List Byte).take 4 ≠ [0x46, 0xA1, 0xE7, 0x00] ∧ b.take 4 ≠ [0x46, 0xA2, 0xE8, 0x00]) ∧
      (let s := stepping .sending (exchanging 70 .board up);
        (s.display.frame.map fun f : Frame => { f with forStep := true }) =
          some { frameTo 70 .board false with forStep := true } ∧ s.display.step = .sending ∧
            s.cmd.exec = some [0x0401, 0, 0, 0, 0, 0, 0]) ∧
      (let s := stepping .waiting (exchanging 70 .board (inMode .hold up));
        s.display.frame = some (frameTo 70 .board false) ∧ s.display.step = .waiting ∧
          s.cmd.exec = some [0x0401, 0, 0, 0, 0, 0, 0]) := by decide +kernel

/-! ### Cue link -/

/-- A record without slot, not-before time and message may go. -/
theorem mayGo_free {s : State} {c : Cue} (hn : c.notBefore = none) (hs : c.slot = none) (hm : s.cues.msg = none) : MayGo s c := by
  refine ⟨?_, ?_, ?_⟩
  · intro n h
    rw [hn] at h
    cases h
  · intro i h
    rw [hs] at h
    cases h
  · intro m h
    rw [hm] at h
    cases h

/-- READY with two GENERAL cues, the older first; GAP with an EMERGENCY cue; busy high in mode TIMED. The gate: the drop of slot 21's
row, OFFLINE, showing another slot, and showing it at the cue's platform; in HOLD the lowest row that shows it, or none. No message
begins: busy high, another link state, a not-before time to come, and in GAP a GENERAL cue. -/
theorem witness_MessageBeginsWithTheNextCue :
    (let s := cueing [general, general] up;
      s.resetPin = false ∧ { general with order := 0 } ∈ s.cues.queue ∧ MayGo s { general with order := 0 } ∧
        s.cues.busyIn = false ∧ s.cues.link = .ready ∧
        ∀ e ∈ s.cues.queue, e ≠ { general with order := 0 } →
          e.rank = general.rank ∧ (s.cues.next - e.order).toNat < (s.cues.next - 0).toNat) ∧
      (let t := cueing [phraseCue .emergency 1 0] up;
        let s := { t with cues := { t.cues with link := .gap, busyIn := true }, params := { t.params with linkMode := .timed } };
        s.cues.link = .gap ∧ s.params.linkMode = .timed ∧ ∀ c ∈ s.cues.queue, c.kind = .emergency ∧ MayGo s c) ∧
      (gatedBy 21 (withSlots [] [5, 21] up) = some 1 ∧ gatedBy 21 up = none ∧
        gatedBy 23 (withSlots [] (List.range 24) up) = some 23 ∧ gatedBy 24 (withSlots [] (List.range 25) up) = none ∧
        gatedBy 5 held = some 0 ∧ gatedBy 6 held = none ∧
        (dropAt (offline 1 up) 1).online = false ∧ (dropAt held 0).shown = some (5, 1)) ∧
      (let s := cueing [repeating] up;
        s.cues.link = .ready ∧ ∀ c ∈ s.cues.queue, ¬MayGo s c) ∧
      ∀ c ∈ (cueing [general] up).cues.queue, c.kind ≠ .emergency := by
  refine ⟨⟨rfl, by decide +kernel, mayGo_free rfl rfl rfl, rfl, rfl, by decide +kernel⟩,
    ⟨rfl, rfl, ?_⟩, by decide +kernel, ⟨rfl, ?_⟩, by decide +kernel⟩
  · intro c hc
    have hc' : c ∈ [{ phraseCue .emergency 1 0 with order := 0 }] := hc
    simp only [List.mem_singleton] at hc'
    subst hc'
    exact ⟨rfl, mayGo_free rfl rfl rfl⟩
  · intro c hc h
    have hc' : c ∈ [{ repeating with order := 0 }] := hc
    simp only [List.mem_singleton] at hc'
    subst hc'
    have h' := h.1 _ rfl
    revert h'
    decide +kernel

/-- Acknowledge high, its pulse begun. -/
def risen (s : State) : State :=
  { s with cues := { s.cues with ackIn := true, msg := s.cues.msg.map fun m => { m with ack := .risen } } }

/-- Busy high, the handshake over. -/
def waitingBusy (mode : LinkMode) : State :=
  let s := sendingGeneral mode 0
  { s with cues := { s.cues with
    busyIn := true, msg := s.cues.msg.map fun m => { m with ack := .done, pulseOver := true } } }

/-- The message in flight of such a state, of seven bytes, at a byte before its last. -/
theorem witness_ByteCompletesByItsMode :
    (∀ mode ∈ [LinkMode.acknowledged, .busy, .timed], ∀ index ∈ [0, 5],
      let s := sendingGeneral mode index;
      s.resetPin = false ∧ s.cues.link = .sending ∧ s.cues.strobe = true ∧ s.cues.ackIn = false ∧
        s.cues.busyIn = false ∧ ∀ m ∈ s.cues.msg, m.mode = mode ∧ m.index + 1 < m.bytes.length ∧ m.ack = .none) ∧
      (sendingGeneral .busy 0).cues.msg.isSome = true ∧
      (∀ m ∈ (risen (sendingGeneral .acknowledged 0)).cues.msg, m.ack = .risen) ∧
      (risen (sendingGeneral .acknowledged 0)).cues.ackIn = true ∧
      (∀ mode ∈ [LinkMode.acknowledged, .busy],
        (waitingBusy mode).cues.busyIn = true ∧ ∀ m ∈ (waitingBusy mode).cues.msg, m.ack = .done ∧ m.pulseOver = true) := by
  decide +kernel

/-- A slot's DELAY message, at its last byte, its record waiting with one repeat left. -/
def sendingDelay : State :=
  let c : Cue := { slotCue .delay 21 (recordAt 1439 .current 5 4) 1 with delay := 5 }
  sending c .acknowledged 13 (cueing [c] (withSlots [(21, slotWith (recordAt 1439 .current 5 4) .scheduled)] [21] up))

/-- The PLATFORM_CHANGE message of slot 21 from platform 4, announced, to platform 8, in flight; its record was replaced by one from 8 to
platform p. -/
def sendingChange (p : Nat) : State :=
  let c : Cue := { slotCue .platformChange 21 (recordAt 1439 .current 5 8) 1 with fromPlatform := 4 }
  let s := sending c .acknowledged 2 (cueing [{ c with fromPlatform := 8, platform := p }]
    (withSlots [(21, { slotWith (recordAt 1439 .current 5 p) .scheduled with announced := 4, highlight := some 9 })] [21] up))
  { s with cues := setCondition .replaced s.cues }

/-- The last byte of a GENERAL and of a DELAY message; the record UNCHANGED, in its last presentation and not; REPLACED; a
second abort; a record set back that goes nowhere then, and one that goes on. -/
theorem witness_MessageEndsPresentedOrAborted :
    (∀ s ∈ [sendingGeneral .acknowledged 6, sendingGeneral .busy 6, sendingGeneral .timed 6, sendingDelay],
      s.resetPin = false ∧ s.cues.msg.isSome = true ∧ s.cues.ackIn = false ∧ s.cues.strobe = true ∧
        ∀ m ∈ s.cues.msg, m.index + 1 = m.bytes.length ∧ m.condition = .unchanged ∧ m.gone = false ∧
          (s.cues.queue.find? (·.order = m.cue.order)).isSome = true) ∧
      (∀ c ∈ (sendingGeneral .timed 6).cues.queue, c.repeatCount = c.repeatsLeft) ∧
      (∀ c ∈ sendingDelay.cues.queue, c.repeatCount ≠ c.repeatsLeft ∧ c.aborts = 0) ∧
      (∀ m ∈ sendingDelay.cues.msg, m.cue.slot = some 21 ∧ m.cue.kind = .delay ∧ m.mode = .acknowledged) ∧
      (∀ m ∈ (setCondition .replaced sendingDelay.cues).msg, m.condition ≠ .unchanged) ∧
      (∀ c ∈ (cueing [{ general with aborts := 1 }] up).cues.queue, c.aborts ≠ 0) ∧
      (∀ p ∈ [4, 9], ∀ m ∈ (sendingChange p).cues.msg, (m.mode = .acknowledged ∧ m.condition = .replaced) ∧ setsBack m = some 21) ∧
      (∀ m ∈ (sendingChange 4).cues.msg, slotsAfterAbort m (sendingChange 4) ≠ (sendingChange 4).slots ∧
        queueAfterAbort m (sendingChange 4) = []) ∧
      (∀ m ∈ (sendingChange 9).cues.msg, slotsAfterAbort m (sendingChange 9) = (sendingChange 9).slots ∧
        (queueAfterAbort m (sendingChange 9)).map (·.fromPlatform) = [4]) ∧
      ParamsSound (sendingChange 4) ∧ DisplaySound (sendingChange 4) :=
  ⟨by decide +kernel, by decide +kernel, by decide +kernel, by decide +kernel, by decide +kernel, by decide +kernel, by decide +kernel,
    by decide +kernel, by decide +kernel, params_sound (by decide +kernel) (by decide +kernel),
    display_sound (by decide +kernel) (by decide +kernel)⟩

theorem witness_LinkTimersAndInputsMoveTheLink :
    up.resetPin = false ∧ ({ up with cues := { up.cues with link := .gap, gapTimer := some 4 } }).cues.gapTimer.isSome = true ∧
      ({ up with cues := { up.cues with link := .speaking, busyTimer := some 120 } }).cues.busyTimer.isSome = true ∧
      up.cues.busyIn = false ∧ up.cues.msg = none ∧ up.cues.ackIn = false ∧
      (∀ l ∈ [LinkState.speaking, .stalled, .ready, .gap, .off],
        ({ up with cues := { up.cues with link := l, busyIn := true, ackIn := true } }).cues.link = l) ∧
      (let s := { cueing [repeating] up with refTime := 60 };
        { repeating with order := 0 } ∈ s.cues.queue ∧ repeating.notBefore = some { time := 60, passed := false } ∧
          60 ≤ s.refTime) := by decide +kernel

/-- A slot, a clock, a summary word and an entry at the ends of their ranges. -/
theorem witness_FramesAndWordsAreLaidOut :
    (let s := withSlots [(21, { slotWith (recordAt 1439 .previous 5 32) .scheduled with generation := 255 })] [21] up
     (slotAt s 21).announced = 32 ∧ (slotAt s 21).generation = 255 ∧ (∀ p ∈ positionOf s 21, p ≤ 95) ∧
      (∀ k ∈ (slotAt s 21).keys, -1 ≤ k.offset ∧ k.offset ≤ 1)) ∧
      (runningAt 86399).clock.t < 86400 ∧ (runningAt 86399).clock.roll < 1440 ∧
      (let s := marked (List.replicate 82 (markOf 0 false 0)) (withSlots [] (List.range 96) queueFull)
       s.rowMap.length = 96 ∧ s.display.marks.length = 82 ∧ s.cues.queue.length = 16 ∧ s.notices.entries.length = 8) ∧
      (let e : Entry := { notice 255 .disruption with
        dwell := 60, minutes := 1440, phrase := 4095, text := List.replicate 240 0, errAddr := 2 ^ 32 - 1 }
       e.id ≤ 255 ∧ e.dwell ≤ 60 ∧ e.minutes ≤ 1440 ∧ e.text.length ≤ 240 ∧ e.phrase ≤ 4095 ∧ e.errAddr < 2 ^ 32) := by
  decide +kernel

/-! ### Invariants: a sound state that takes a step -/

/-- The part in RUNNING with a command waiting. -/
def ready (c : Instr) (s : State) : State := { s with pending := [c] }

/-- A step of a command waiting is its effect. -/
theorem step_ready {c : Instr} {s : State} (h : answers c { ready c s with pending := [] } = true) :
    step (ready c s) = .next (after c { ready c s with pending := [] }) := exec_after h

theorem witness_StepKeepsAttentionAndClockSound :
    let s := ready .masterPulse (withClock .locked .masterMinute 89 { up with att := { pending := 3, request := 1, mask := 1 } })
    AttentionSound s ∧ ClockSound s ∧ step s = .next (after .masterPulse { s with pending := [] }) :=
  ⟨by unfold AttentionSound; decide +kernel, by unfold ClockSound; decide +kernel, step_ready (by decide +kernel)⟩

theorem witness_StepKeepsParamsAndWriteBackSound :
    ParamsSound (ready (.writeBackComplete false) (writingBack 0x80 0 [entry 0x80] up)) ∧
      WriteBackSound (ready (.writeBackComplete false) (writingBack 0x80 0 [entry 0x80] up)) ∧
      step (ready (.writeBackComplete false) (writingBack 0x80 0 [entry 0x80] up)) =
        .next (after (.writeBackComplete false)
          { ready (.writeBackComplete false) (writingBack 0x80 0 [entry 0x80] up) with pending := [] }) := by
  refine ⟨by unfold ParamsSound ParamsInRange LayoutValid Within; decide +kernel,
    ⟨by decide +kernel, by decide +kernel, ?_, by decide +kernel, rfl⟩, step_ready (by decide +kernel)⟩
  intro o h
  have h' : (some 0x80 : Option Nat) = some o := h
  cases h'
  rfl

theorem witness_StepKeepsRequestsSound :
    RequestsSound (ready (.ownReadComplete 0 true) (configuring [] false)) ∧
      step (ready (.ownReadComplete 0 true) (configuring [] false)) =
        .next (after (.ownReadComplete 0 true)
          { ready (.ownReadComplete 0 true) (configuring [] false) with pending := [] }) := by
  refine ⟨⟨by decide +kernel, by decide +kernel, by decide +kernel, by decide +kernel, ?_, by decide +kernel⟩,
    step_ready (by decide +kernel)⟩
  intro r h
  have h' : (some { addr := 0x40, source := .load } : Option ReadReq) = some r := h
  cases h'
  rfl

theorem witness_StepKeepsDisplaySound :
    DisplaySound (ready .replyWindowClose (exchanging 70 .board up)) ∧
      step (ready .replyWindowClose (exchanging 70 .board up)) =
        .next (after .replyWindowClose { ready .replyWindowClose (exchanging 70 .board up) with pending := [] }) := by
  refine ⟨⟨by decide +kernel, by decide +kernel, by decide +kernel, by decide +kernel, by decide +kernel, by decide +kernel,
    ?_⟩, step_ready (by decide +kernel)⟩
  intro f h _
  have h' : some (frameTo 70 .board false) = some f := h
  cases h'
  decide +kernel

theorem witness_StepKeepsRowMapSound :
    RowMapSound (ready .internalReferenceSecond mapped) ∧
      step (ready .internalReferenceSecond mapped) =
        .next (after .internalReferenceSecond { ready .internalReferenceSecond mapped with pending := [] }) :=
  ⟨rowMap_sound, step_ready (by decide +kernel)⟩

theorem witness_StepKeepsCuesSound :
    CuesSound (ready (.acknowledgeInput .riseAndFall) sendingDelay) ∧
      step (ready (.acknowledgeInput .riseAndFall) sendingDelay) =
        .next (after (.acknowledgeInput .riseAndFall)
          { ready (.acknowledgeInput .riseAndFall) sendingDelay with pending := [] }) := by
  refine ⟨⟨by decide +kernel, by decide +kernel, by decide +kernel, by decide +kernel, by decide +kernel, ?_, ?_⟩,
    step_ready (by decide +kernel)⟩
  · intro c hc i h
    have h' : c ∈ [{ slotCue .delay 21 (recordAt 1439 .current 5 4) 1 with delay := 5 }] := hc
    simp only [List.mem_singleton] at h'
    subst h'
    have h' : (some 21 : Option Nat) = some i := h
    cases h'
    decide +kernel
  · intro n h
    have h' : some n ∈ List.replicate 32 (none : Option Footnote) := h
    simp at h'

theorem witness_StepKeepsLinkSound :
    LinkSound (ready .busyRises (sendingGeneral .acknowledged 0)) ∧
      step (ready .busyRises (sendingGeneral .acknowledged 0)) =
        .next (after .busyRises { ready .busyRises (sendingGeneral .acknowledged 0) with pending := [] }) := by
  refine ⟨⟨by decide +kernel, by decide +kernel, by decide +kernel, by decide +kernel, by decide +kernel, by decide +kernel,
    ?_⟩, step_ready (by decide +kernel)⟩
  intro m h
  have key : ∀ m ∈ (ready .busyRises (sendingGeneral .acknowledged 0)).cues.msg, m.index < m.bytes.length := by
    decide +kernel
  exact key m h

theorem witness_StepKeepsNoticesSound :
    let s := noticing [(2, notice 9 .info), (5, notice 8 .info)] up
    NoticesSound (ready .tickerDwellExpiry s) ∧
      step (ready .tickerDwellExpiry s) =
        .next (after .tickerDwellExpiry { ready .tickerDwellExpiry s with pending := [] }) := by
  refine ⟨⟨?_, ⟨?_, ?_, ?_⟩, rotation_sound⟩, step_ready (by decide +kernel)⟩
  · unfold NoticeTableSound
    decide +kernel
  · unfold Within
    decide +kernel
  · intro f h
    have h' : (none : Option Fetch) = some f := h
    cases h'
  · intro f h
    have h' : (none : Option Fetch) = some f := h
    cases h'

end Sys2Proof.Tests
end

section
/-! PROOFS. The word classes of the managed region (R2): the class of each row of R2's table, the part-owned offsets, and the
written-back words by their offsets. -/

namespace Sys2Proof.Machine

/-! ## The class of an offset, row by row of the table of R2 -/

theorem classOf_command {o : Nat} (h : o < 0x1C) : classOf o = .command (o / 4) := if_pos h

theorem classOf_response {o : Nat} (hlo : 0x20 ≤ o) (hhi : o < 0x40) : classOf o = .response ((o - 0x20) / 4) := by
  simp (disch := omega) only [classOf, if_neg, if_pos]

theorem classOf_config {o : Nat} (hlo : 0x40 ≤ o) (hhi : o < 0x80) : classOf o = .config ((o - 0x40) / 4) := by
  simp (disch := omega) only [classOf, if_neg, if_pos]

theorem classOf_notice {o : Nat} (hlo : 0x100 ≤ o) (hhi : o < 0x180) :
    classOf o = .notice ((o - 0x100) / 16) (o % 16 / 4) := by
  simp (disch := omega) only [classOf, if_neg, if_pos]

/-- The three plain ranges outside the departure records. -/
theorem classOf_plain {o : Nat} (h : 0x90 ≤ o ∧ o < 0x100 ∨ 0x180 ≤ o ∧ o < 0x1000 ∨ 0x1C00 ≤ o) :
    classOf o = .plain := by
  obtain ⟨hlo, hhi⟩ | ⟨hlo, hhi⟩ | hlo := h <;> simp (disch := omega) only [classOf, if_neg, if_pos]

/-- The class of byte r of the departure record of slot i. -/
theorem classOf_departureRecord {i r : Nat} (hi : i < 96) (hr : r < 32) :
    classOf (0x1000 + 32 * i + r) =
      if r < 20 then .record i (r / 4) else if r < 24 then .plain else if r < 28 then .status i else .commit i := by
  have hbyte : (0x1000 + 32 * i + r) % 32 = r := by omega
  have hslot : (0x1000 + 32 * i + r - 0x1000) / 32 = i := by omega
  simp (disch := omega) only [classOf, if_neg, if_pos, hbyte, hslot]

/-! ## The part-owned words and the written-back ones -/

/-- The part-owned offsets, the event and the fault word among them. -/
theorem partOwned_classOf_iff {o : Nat} :
    (classOf o).partOwned = true ↔
      0x20 ≤ o ∧ o < 0x40 ∨ 0x80 ≤ o ∧ o < 0x90 ∨ 0x100 ≤ o ∧ o < 0x180 ∨
        0x1000 ≤ o ∧ o < 0x1C00 ∧ 24 ≤ o % 32 ∧ o % 32 < 28 := by
  fun_cases classOf o <;> simp only [WordClass.partOwned, true_iff, Bool.false_eq_true, false_iff] <;> omega

/-- The written-back words are the response words, the clock word, the summary word, the notice status words and the status
words of the slots. -/
theorem mem_writtenBack {o : Nat} :
    o ∈ writtenBack ↔
      (∃ k < 8, 0x20 + 4 * k = o) ∨ o = 0x80 ∨ o = 0x8C ∨ (∃ k < 32, 0x100 + 4 * k = o) ∨
        ∃ i < 96, 0x1000 + 32 * i + 24 = o := by
  simp [writtenBack]

theorem mem_wordRange_iff {base n o : Nat} (hbase : base % 4 = 0) (ho : o % 4 = 0) :
    (∃ k < n, base + 4 * k = o) ↔ base ≤ o ∧ o < base + 4 * n :=
  ⟨fun ⟨k, _, _⟩ => by omega, fun _ => ⟨(o - base) / 4, by omega, by omega⟩⟩

theorem statusWord_offset_iff {o : Nat} (ho : o % 4 = 0) :
    (∃ i < 96, 0x1000 + 32 * i + 24 = o) ↔ 0x1000 ≤ o ∧ o < 0x1C00 ∧ 24 ≤ o % 32 ∧ o % 32 < 28 :=
  ⟨fun ⟨i, _, _⟩ => by omega, fun _ => ⟨(o - 0x1000) / 32, by omega, by omega⟩⟩

/-- A word is written back exactly where it is part-owned and neither the event nor the fault word. -/
theorem mem_writtenBack_iff_partOwned {o : Nat} (ho : o % 4 = 0) :
    o ∈ writtenBack ↔ (classOf o).partOwned = true ∧ o ≠ 0x84 ∧ o ≠ 0x88 := by
  rw [mem_writtenBack, mem_wordRange_iff (by rfl) ho, mem_wordRange_iff (by rfl) ho, statusWord_offset_iff ho,
    partOwned_classOf_iff]
  omega

/-- 8 response words, the clock and the summary word, 32 notice status words, 96 slot status words. -/
theorem length_writtenBack : writtenBack.length = 8 + 2 + 32 + 96 := by
  simp [writtenBack]

/-- Settles O4: each row of the table of R2 by its own lemma, and the written-back words by their offsets. -/
theorem wordClassesOfTheRegion : Obligations.WordClassesOfTheRegion := by
  unfold Obligations.WordClassesOfTheRegion
  refine ⟨fun k hk => ?command, rfl, fun k hk => ?response, fun k hk => ?config, rfl, rfl, rfl, rfl,
    fun o hlo hhi => classOf_plain (by omega), fun i hi k hk => ?notice, fun o hlo hhi => classOf_plain (by omega),
    fun i hi => ⟨fun k hk => ?record, classOf_departureRecord hi (by decide), classOf_departureRecord hi (by decide),
      classOf_departureRecord hi (by decide)⟩,
    fun o hlo _ => classOf_plain (by omega), length_writtenBack, fun o _ ho => mem_writtenBack_iff_partOwned ho⟩
  case command => rw [classOf_command (by omega), Nat.mul_div_cancel_left k (by decide)]
  case response =>
    rw [classOf_response (by omega) (by omega), Nat.add_sub_cancel_left, Nat.mul_div_cancel_left k (by decide)]
  case config =>
    rw [classOf_config (by omega) (by omega), Nat.add_sub_cancel_left, Nat.mul_div_cancel_left k (by decide)]
  case notice =>
    have hentry : (0x100 + 16 * i + 4 * k - 0x100) / 16 = i := by omega
    have hword : (0x100 + 16 * i + 4 * k) % 16 / 4 = k := by omega
    rw [classOf_notice (by omega) (by omega), hentry, hword]
  case record =>
    rw [classOf_departureRecord hi (by omega), if_pos (by omega), Nat.mul_div_cancel_left k (by decide)]

end Sys2Proof.Machine
end

section
/-! PROOFS. The framing of a cue message (R149): its parameter bytes by kind, and its check byte. -/

namespace Sys2Proof.Machine

/-! ## The exclusive OR check -/

/-- A receiver that takes the bytes in the order in which they are sent computes the same check. -/
theorem foldl_xor_eq_xorCheck (bytes : List Byte) : bytes.foldl (· ^^^ ·) 0 = xorCheck bytes :=
  List.foldl_eq_foldr

/-- The check byte cancels the bytes before it. -/
theorem foldl_xor_append_xorCheck (bytes : List Byte) : (bytes ++ [xorCheck bytes]).foldl (· ^^^ ·) 0 = 0 := by
  rw [List.foldl_append, foldl_xor_eq_xorCheck]
  exact BitVec.xor_self

/-! ## The parameters and the message -/

/-- The length byte n of each kind (the parameter table of R149). -/
theorem length_messageParams (c : Cue) :
    (messageParams c).length = match c.kind with
      | .platformChange => 9
      | .cancellation | .boarding => 8
      | .delay => 10
      | .notice | .general | .emergency => 3 := by
  unfold messageParams
  cases c.kind <;> rfl

/-- The exclusive OR of every byte of a message, its check included, is 0. -/
theorem foldl_xor_messageBytes (c : Cue) : (messageBytes c).foldl (· ^^^ ·) 0 = 0 :=
  foldl_xor_append_xorCheck _

/-- Settles O50: the kinds agree on code and parameters, so the message is the model's; its check cancels what it follows. -/
theorem cueMessageIsFramed : Obligations.CueMessageIsFramed := by
  unfold Obligations.CueMessageIsFramed
  intro c two one head e
  have he : e = (c.kind.code, messageParams c) := by
    unfold e messageParams
    cases c.kind <;> rfl
  rw [he]
  exact ⟨_, rfl, foldl_xor_messageBytes c, length_messageParams c⟩

end Sys2Proof.Machine
end

section
/-! PROOFS. The fields of a packed word (chapter 11, opening): a field is read back where the fields, in ascending order, do not
overlap. -/

namespace Sys2Proof.Machine

/-! ## Reading a field back -/

/-- The number that `packWord` cuts to a word. -/
def packedSum (fields : List (Nat × Nat)) : Nat := fields.foldr (fun f acc => f.1 * 2 ^ f.2 + acc) 0

theorem field_packWord (fields : List (Nat × Nat)) {lo len : Nat} (h : lo + len ≤ 32) :
    field (packWord fields) lo len = packedSum fields / 2 ^ lo % 2 ^ len := by
  apply Nat.eq_of_testBit_eq
  intro i
  simp only [field, packWord, packedSum, BitVec.extractLsb'_toNat, BitVec.toNat_ofNat, Nat.testBit_mod_two_pow,
    Nat.testBit_shiftRight, Nat.testBit_div_two_pow, Nat.add_comm i lo]
  by_cases hi : i < len
  · simp [hi, show lo + i < 32 by omega]
  · simp [hi]

/-- A field of one bit, read as a flag. -/
theorem getLsbD_eq_field (w : Word) (b : Nat) : w.getLsbD b = decide (field w b 1 = 1) := by
  rw [field, BitVec.extractLsb'_toNat, Nat.shiftRight_eq_div_pow, Nat.pow_one, ← Nat.testBit_eq_decide_div_mod_eq]
  rfl

/-! ## The fields of the sum -/

theorem pow_dvd_packedSum {m : Nat} {fields : List (Nat × Nat)} (h : ∀ f ∈ fields, m ≤ f.2) : 2 ^ m ∣ packedSum fields := by
  induction fields with
  | nil => exact Nat.dvd_zero _
  | cons f rest ih =>
    obtain ⟨hf, hrest⟩ := List.forall_mem_cons.1 h
    exact Nat.dvd_add (Dvd.dvd.mul_left (Nat.pow_dvd_pow 2 hf) _) (ih hrest)

/-- The first field, where the others begin above it. -/
theorem packedSum_cons_field {v lo len : Nat} {rest : List (Nat × Nat)} (hv : v < 2 ^ len)
    (hrest : ∀ f ∈ rest, lo + len ≤ f.2) : packedSum ((v, lo) :: rest) / 2 ^ lo % 2 ^ len = v := by
  obtain ⟨q, hq⟩ := pow_dvd_packedSum hrest
  have hsum : packedSum ((v, lo) :: rest) = 2 ^ lo * (v + 2 ^ len * q) := by
    change v * 2 ^ lo + packedSum rest = _
    rw [hq]
    ring
  rw [hsum, Nat.mul_div_cancel_left _ (Nat.two_pow_pos lo), Nat.add_mul_mod_self_left, Nat.mod_eq_of_lt hv]

/-- Above the first field stand the others. -/
theorem packedSum_cons_div {v lo len m : Nat} {rest : List (Nat × Nat)} (hv : v < 2 ^ len)
    (hrest : ∀ f ∈ rest, lo + len ≤ f.2) (hm : lo + len ≤ m) :
    packedSum ((v, lo) :: rest) / 2 ^ m = packedSum rest / 2 ^ m := by
  obtain ⟨q, hq⟩ := pow_dvd_packedSum hrest
  have hlow : v * 2 ^ lo < 2 ^ (lo + len) := by
    rw [Nat.pow_add, Nat.mul_comm]
    exact Nat.mul_lt_mul_of_pos_left hv (Nat.two_pow_pos lo)
  change (v * 2 ^ lo + packedSum rest) / 2 ^ m = _
  rw [hq, ← Nat.add_sub_cancel' hm, Nat.pow_add 2 (lo + len), ← Nat.div_div_eq_div_mul, ← Nat.div_div_eq_div_mul,
    Nat.add_mul_div_left _ _ (Nat.two_pow_pos _), Nat.div_eq_of_lt hlow, Nat.zero_add,
    Nat.mul_div_cancel_left _ (Nat.two_pow_pos _)]

/-- Field i of a row of n equal fields that begins at bit `lo`. -/
theorem packedSum_row_field {v : Nat → Nat} {len n i : Nat} (lo : Nat) (hv : ∀ j, v j < 2 ^ len) (hi : i < n) :
    packedSum ((List.range n).map fun j => (v j, lo + len * j)) / 2 ^ (lo + len * i) % 2 ^ len = v i := by
  induction n generalizing v lo i with
  | zero => exact absurd hi (Nat.not_lt_zero i)
  | succ n ih =>
    have hsplit : ((List.range (n + 1)).map fun j => (v j, lo + len * j)) =
        (v 0, lo) :: (List.range n).map fun j => (v (j + 1), lo + len + len * j) := by
      simp [List.range_succ_eq_map, Nat.mul_succ, Nat.add_assoc, Nat.add_comm len]
    have hrest : ∀ f ∈ (List.range n).map (fun j => (v (j + 1), lo + len + len * j)), lo + len ≤ f.2 := by simp
    rw [hsplit]
    cases i with
    | zero => exact packedSum_cons_field (hv 0) hrest
    | succ i =>
      have hlo : lo + len * (i + 1) = lo + len + len * i := by ring
      rw [hlo, packedSum_cons_div (hv 0) hrest (Nat.le_add_right _ _)]
      exact ih (lo + len) (fun j => hv (j + 1)) (Nat.lt_of_succ_lt_succ hi)

end Sys2Proof.Machine
end

section
/-! PROOFS. A command taken and answered (R166 to R168): its trigger write, the state that its block is handed, and the state
that its completion leaves. -/

namespace Sys2Proof.Machine

variable {s : State} {a : Access} {code : Nat}

theorem triggers_of_triggerAt (h : TriggerAt s a code) : triggers code s = true := by
  obtain ⟨⟨-, hport, hwrite, hcls⟩, hlanes, hcode⟩ := h
  have hcls' : a.cls s.strap = .trigger := hcls
  simpa [triggers, inFlightIs, inPort, hport, isTrigger, hwrite, hcls', hcode] using hlanes

/-- A write of the trigger word is answered, and captured in no copy (R5). -/
theorem finishWrite_of_triggerAt (h : TriggerAt s a code) (err : Bool) :
    finishWrite err s = { s with mem := s.mem.answered (.writeDone err) } := by
  obtain ⟨⟨-, hport, -, hcls⟩, -, -⟩ := h
  have hcls' : a.cls s.strap = .trigger := hcls
  simp only [finishWrite, inPort, hport, hcls']
  rfl

theorem takeCommand_eq (s : State) :
    takeCommand s = { s with
      cmd := { s.cmd with exec := some s.cmd.staging }, att := s.att.after (takenEvents s) } := by
  unfold takeCommand pendIf takenEvents
  cases ackWanted s.cmd.staging <;> rfl

/-- The state that a block is handed with its command. -/
def commandTaken (err : Bool) (s : State) : State :=
  { s with
    mem := s.mem.answered (.writeDone err), cmd := { s.cmd with exec := some s.cmd.staging }
    att := s.att.after (takenEvents s) }

/-- A trigger with no command in execution, in a part state that the command is taken in, hands it to its block (R166, R167). -/
theorem handTrigger_eq_act {allowed : PartState → Bool} (act : List Word → State → State) (err : Bool)
    (h : TriggerAt s a code) (hexec : s.cmd.exec = none) (hallowed : allowed s.part.state = true) :
    handTrigger allowed act err s = act s.cmd.staging (commandTaken err s) := by
  simp only [handTrigger, finishWrite_of_triggerAt h, hexec, hallowed, takeCommand_eq, Option.isSome_none,
    Bool.false_eq_true, ↓reduceIte]
  rfl

/-- The state after a command that is taken and completes at once: answered, its events pended, nothing else touched. -/
def commandAnswered (err : Bool) (p : Primary) (q : Secondary) (results : List Word) (s : State) : State :=
  { s with
    mem := s.mem.answered (.writeDone err)
    cmd := { s.cmd with
      exec := none, response := responseHead s.cmd.staging p q :: results, count := s.cmd.count + 1 }
    att := s.att.after (takenEvents s ++ [.commandDone]) }

theorem complete_commandTaken (err : Bool) (p : Primary) (q : Secondary) (results : List Word) (s : State) :
    complete p q results (commandTaken err s) = commandAnswered err p q (resultWords results) s := by
  rw [complete_some p q results (commandTaken err s) s.cmd.staging rfl]
  simp [commandTaken, commandAnswered, Attention.after]

/-- The end of the event keeps what the statements say of a command so completed. -/
theorem settle_commandAnswered (err : Bool) (p : Primary) (q : Secondary) (results : List Word) (s : State) :
    let t := settle s (commandAnswered err p q results s)
    Answered err p q results s t ∧ t.att = s.att.after (takenEvents s ++ [.commandDone]) ∧ OnlyCommand s t := by
  rw [settle_frame]
  exact ⟨⟨rfl, rfl⟩, rfl, rfl⟩

end Sys2Proof.Machine
end

section
/-! PROOFS. QUERY (R169): its six result words by the layout of section 11.2. -/

namespace Sys2Proof.Machine

/-! ## The result words -/

theorem bitOf_lt (b : Bool) : bitOf b < 2 ^ 1 := by cases b <;> decide

theorem EntryState.code_lt (e : EntryState) : e.code < 2 ^ 2 := by cases e <;> decide

theorem length_queryResults (s : State) : (queryResults s).length = 6 := rfl

/-- Six words are handed over, so completion pads none. -/
theorem resultWords_queryResults (s : State) : resultWords (queryResults s) = queryResults s := rfl

/-- Flag b of OFFLINE word k is that of drop 32 k + b. -/
theorem getLsbD_offlineWord (s : State) (k : Nat) {b : Nat} (hb : b < 32) :
    (offlineWord s k).getLsbD b = !(dropAt s (32 * k + b)).online := by
  have hrow := packedSum_row_field (v := fun b => bitOf !(dropAt s (32 * k + b)).online) 0 (fun _ => bitOf_lt _) hb
  simp only [Nat.zero_add, Nat.one_mul] at hrow
  rw [getLsbD_eq_field, offlineWord, field_packWord _ (by omega), hrow]
  cases (dropAt s (32 * k + b)).online <;> rfl

theorem queryResults_offline (s : State) {d : Nat} (hd : d < 128) :
    ((queryResults s).getD (d / 32) 0).getLsbD (d % 32) = !(dropAt s d).online := by
  have hword : ∀ k < 4, (queryResults s).getD k 0 = offlineWord s k := by
    intro k hk
    interval_cases k <;> rfl
  rw [hword _ (by omega), getLsbD_offlineWord s _ (Nat.mod_lt d (by decide)), Nat.div_add_mod]

/-- Result word 5: the row map length and the pending frame count. -/
theorem queryResults_lengths (s : State) (hrows : s.rowMap.length < 2 ^ 8) (hmarks : s.display.marks.length < 2 ^ 8) :
    field ((queryResults s).getD 4 0) 0 8 = s.rowMap.length ∧
      field ((queryResults s).getD 4 0) 16 8 = s.display.marks.length := by
  have hword : (queryResults s).getD 4 0 = packWord [(s.rowMap.length, 0), (s.display.marks.length, 16)] := rfl
  rw [hword, field_packWord _ (by decide), field_packWord _ (by decide)]
  constructor
  · exact packedSum_cons_field hrows (by simp)
  · rw [packedSum_cons_div hrows (by simp) (by decide)]
    exact packedSum_cons_field hmarks (by simp)

/-- Result word 6: the queue depth, and the states of the notice entries from bit 16. -/
theorem queryResults_queue (s : State) (hdepth : s.cues.queue.length < 2 ^ 8) :
    field ((queryResults s).getD 5 0) 0 8 = s.cues.queue.length ∧
      ∀ i < 8, field ((queryResults s).getD 5 0) (16 + 2 * i) 2 = (entryAt s i).state.code := by
  have hword : (queryResults s).getD 5 0 = packWord ((s.cues.queue.length, 0) ::
      (List.range 8).map fun i => ((entryAt s i).state.code, 16 + 2 * i)) := rfl
  have habove : ∀ f ∈ (List.range 8).map (fun i => ((entryAt s i).state.code, 16 + 2 * i)), 0 + 8 ≤ f.2 := by
    simp only [List.forall_mem_map]
    omega
  rw [hword]
  constructor
  · rw [field_packWord _ (by decide)]
    exact packedSum_cons_field hdepth habove
  · intro i hi
    rw [field_packWord _ (by omega), packedSum_cons_div hdepth habove (by omega)]
    exact packedSum_row_field 16 (fun j => (entryAt s j).state.code_lt) hi

/-! ## The command -/

/-- A QUERY that is taken completes with the values of the state that it finds, whatever the part state. -/
theorem exec_query_eq {s : State} {a : Access} (err : Bool) (h : TriggerAt s a 11) (hexec : s.cmd.exec = none) :
    exec (.query err) s = .next (settle s (commandAnswered err .done .none (queryResults s) s)) := by
  have htrigger : TriggerAt s a codeQuery := h
  have hresults : queryResults (commandTaken err s) = queryResults s := rfl
  change execQuery err s = _
  rw [execQuery, occur_eq, if_pos ⟨h.1.1, triggers_of_triggerAt htrigger⟩, handTrigger_eq_act _ err htrigger hexec rfl,
    queryCommand, completeDone, complete_commandTaken, hresults, resultWords_queryResults]

/-- Settles O41: a QUERY completes with the results of the state it finds, whose fields are read back word by word. -/
theorem queryAnswersInEveryState : Obligations.QueryAnswersInEveryState := by
  unfold Obligations.QueryAnswersInEveryState
  intro err s a h hexec hrows hmarks hdepth
  obtain ⟨hanswered, hatt, honly⟩ := settle_commandAnswered err .done .none (queryResults s) s
  obtain ⟨hlength, hframes⟩ := queryResults_lengths s (by omega) (by omega)
  obtain ⟨hqueue, hentries⟩ := queryResults_queue s (by omega)
  refine ⟨_, queryResults s, exec_query_eq err h hexec, length_queryResults s, hanswered, hatt, honly,
    fun d hd => queryResults_offline s hd, hlength, hframes, hqueue, fun i hi => ?_⟩
  rw [hentries i hi]
  cases (entryAt s i).state <;> rfl

end Sys2Proof.Machine
end

section
/-! PROOFS. The frame of each operation: the leaves of the state that it may change. `Only fs s t` says that every other leaf is
the same in both states; frames compose, and a statement about some leaves is kept where they are not in the frame. -/

namespace Sys2Proof.Machine

set_option Elab.async false

/-! ## Views of the state that most operations keep -/

/-- A slot's applied record, derived fields and state: a slot without its staging copy, what its status word alone shows, and the
Service Change Logic's share of it. -/
def Slot.core (x : Slot) : Slot :=
  { Slot.reset with applied := x.applied, keys := x.keys, state := x.state }

/-- A message without what becomes of its record and of its slot. -/
def Message.core (m : Message) : Message := { m with condition := .unchanged, gone := false }

/-- The port carries an access of the part's own. -/
def Port.own : Port → Bool
  | .ownRead _ | .writeBack _ _ => true
  | .idle | .processor _ => false

/-- The pending set holds each drop at most once, and only ONLINE configured drops (R97). -/
def MarksSound (s : State) : Prop :=
  (s.display.marks.map (·.drop)).Nodup ∧
    ∀ m ∈ s.display.marks, (dropAt s m.drop).online = true ∧ (dropAt s m.drop).role ≠ .none

/-- Between two states no flag was changed but by events pended. -/
def FlagsPended (s t : State) : Prop := ∃ events, t.att = s.att.after events

theorem FlagsPended.refl (s : State) : FlagsPended s s := ⟨[], rfl⟩

theorem FlagsPended.trans {s t u : State} (h : FlagsPended s t) (h' : FlagsPended t u) : FlagsPended s u := by
  obtain ⟨es, h⟩ := h
  obtain ⟨es', h'⟩ := h'
  exact ⟨es ++ es', by rw [h', h, Attention.after, Attention.after, Attention.after, List.foldl_append]⟩

/-! ## Leaves and frames -/

/-- The leaves of the state: the fields of `State`, with those units opened whose operations each change a part of them; and six
views, which read leaves that many operations change and which few of these change: how flags change, the form of the pending set,
a slot's core and record, a message's core, the own access on the port. -/
inductive Leaf where
  | resetPin | strap
  | port | waiting | answer | reads | writeBacks | lastOwn | counter | arbMode | fault | noted
  | slots | rowMap | footnotes | clock | params
  | drops | marks | probes | joinSeq | pointer | probeTimer | wallMode | frame | stepPhase
  | cueQueue | nextOrder | link | msg | gapTimer | busyTimer | strobe | dataOut | ackIn | busyIn
  | entries | requests | fetch | orphan | rotIndex | shown | dwellTimer
  | staging | exec | response | count | config
  | att | partState | reading | clamped | configured
  | refTime | freeCount | pending
  | flags | markSet | slotCore | slotRecord | msgCore | ownPort
deriving DecidableEq

/-- A leaf is the same in two states; of the flags, that they differ by events pended; of the pending set, that its form is
kept; of the own access, that none has started. -/
def Same (f : Leaf) (s t : State) : Prop :=
  match f with
  | .resetPin => t.resetPin = s.resetPin
  | .strap => t.strap = s.strap
  | .port => t.mem.port = s.mem.port
  | .waiting => t.mem.waiting = s.mem.waiting
  | .answer => t.mem.answer = s.mem.answer
  | .reads => t.mem.reads = s.mem.reads
  | .writeBacks => t.mem.writeBacks = s.mem.writeBacks
  | .lastOwn => t.mem.lastOwn = s.mem.lastOwn
  | .counter => t.mem.counter = s.mem.counter
  | .arbMode => t.mem.mode = s.mem.mode
  | .fault => t.mem.fault = s.mem.fault
  | .noted => t.mem.noted = s.mem.noted
  | .slots => t.slots = s.slots
  | .rowMap => t.rowMap = s.rowMap
  | .footnotes => t.footnotes = s.footnotes
  | .clock => t.clock = s.clock
  | .params => t.params = s.params
  | .drops => t.display.drops = s.display.drops
  | .marks => t.display.marks = s.display.marks
  | .probes => t.display.probes = s.display.probes
  | .joinSeq => t.display.joinSeq = s.display.joinSeq
  | .pointer => t.display.pointer = s.display.pointer
  | .probeTimer => t.display.probeTimer = s.display.probeTimer
  | .wallMode => t.display.mode = s.display.mode
  | .frame => t.display.frame = s.display.frame
  | .stepPhase => t.display.step = s.display.step
  | .cueQueue => t.cues.queue = s.cues.queue
  | .nextOrder => t.cues.next = s.cues.next
  | .link => t.cues.link = s.cues.link
  | .msg => t.cues.msg = s.cues.msg
  | .gapTimer => t.cues.gapTimer = s.cues.gapTimer
  | .busyTimer => t.cues.busyTimer = s.cues.busyTimer
  | .strobe => t.cues.strobe = s.cues.strobe
  | .dataOut => t.cues.dataOut = s.cues.dataOut
  | .ackIn => t.cues.ackIn = s.cues.ackIn
  | .busyIn => t.cues.busyIn = s.cues.busyIn
  | .entries => t.notices.entries = s.notices.entries
  | .requests => t.notices.queue = s.notices.queue
  | .fetch => t.notices.fetch = s.notices.fetch
  | .orphan => t.notices.orphan = s.notices.orphan
  | .rotIndex => t.notices.rotIndex = s.notices.rotIndex
  | .shown => t.notices.shown = s.notices.shown
  | .dwellTimer => t.notices.dwellTimer = s.notices.dwellTimer
  | .staging => t.cmd.staging = s.cmd.staging
  | .exec => t.cmd.exec = s.cmd.exec
  | .response => t.cmd.response = s.cmd.response
  | .count => t.cmd.count = s.cmd.count
  | .config => t.cmd.config = s.cmd.config
  | .att => t.att = s.att
  | .partState => t.part.state = s.part.state
  | .reading => t.part.reading = s.part.reading
  | .clamped => t.part.clamped = s.part.clamped
  | .configured => t.part.configured = s.part.configured
  | .refTime => t.refTime = s.refTime
  | .freeCount => t.freeCount = s.freeCount
  | .pending => t.pending = s.pending
  | .flags => FlagsPended s t
  | .markSet => MarksSound s → MarksSound t
  | .slotCore => t.slots.map Slot.core = s.slots.map Slot.core
  | .slotRecord => t.slots.map (fun x => (x.staging, x.applied)) = s.slots.map fun x => (x.staging, x.applied)
  | .msgCore => t.cues.msg.map Message.core = s.cues.msg.map Message.core
  | .ownPort => t.mem.port = s.mem.port ∨ t.mem.port.own = false

theorem Same.refl (f : Leaf) (s : State) : Same f s s := by
  cases f with
  | flags => exact FlagsPended.refl s
  | markSet => exact id
  | ownPort => exact .inl rfl
  | _ => rfl

theorem Same.trans {f : Leaf} {s t u : State} (h : Same f s t) (h' : Same f t u) : Same f s u := by
  cases f with
  | flags => exact FlagsPended.trans h h'
  | markSet => exact fun hs => h' (h hs)
  | ownPort =>
    obtain h' | h' : u.mem.port = t.mem.port ∨ u.mem.port.own = false := h'
    · exact (h : t.mem.port = s.mem.port ∨ t.mem.port.own = false).imp h'.trans fun h => h' ▸ h
    · exact .inr h'
  | _ => exact Eq.trans h' h

/-- At most the leaves of the list differ between two states. -/
def Only (fs : List Leaf) (s t : State) : Prop := ∀ f, fs.contains f = true ∨ Same f s t

namespace Only

variable {fs gs : List Leaf} {s t u : State}

theorem refl (fs : List Leaf) (s : State) : Only fs s s := fun f => .inr (Same.refl f s)

theorem mono (h : Only fs s t) (hsub : fs.all gs.contains = true := by rfl) : Only gs s t := fun f =>
  (h f).imp_left fun hf => List.all_eq_true.1 hsub f (List.contains_iff_mem.1 hf)

theorem trans (h : Only fs s t) (h' : Only gs t u) : Only (fs ++ gs) s u := fun f => by
  rcases h f with hf | hf
  · exact .inl (by simp [List.contains_iff_mem.1 hf])
  · rcases h' f with hg | hg
    · exact .inl (by simp [List.contains_iff_mem.1 hg])
    · exact .inr (hf.trans hg)

/-- Two operations within one frame. -/
theorem andThen (h : Only fs s t) (h' : Only fs t u) : Only fs s u := fun f => by
  rcases h f with hf | hf
  · exact .inl hf
  · exact (h' f).imp_right hf.trans

/-- A leaf outside the frame is the same. -/
theorem same (h : Only fs s t) (f : Leaf) (hf : fs.contains f = false := by rfl) : Same f s t :=
  (h f).resolve_left (by rw [hf]; decide)

theorem foldl {α : Type} (f : State → α → State) (h : ∀ s a, Only fs s (f s a)) (xs : List α) (s : State) :
    Only fs s (xs.foldl f s) := by
  induction xs generalizing s with
  | nil => exact refl fs s
  | cons a rest ih => exact (h s a).andThen (ih (f s a))

theorem ite {p : Prop} [Decidable p] {a b : State} (ha : Only fs s a) (hb : Only fs s b) : Only fs s (if p then a else b) := by
  split
  · exact ha
  · exact hb

end Only

/-- The value of a leaf in a list is the second, of any other the first. -/
def pick {α : Type} (fs : List Leaf) (f : Leaf) (a b : α) : α := if fs.contains f then b else a

/-- The state that takes the leaves of the list from `t` and every other from `s`. -/
def overlay (fs : List Leaf) (s t : State) : State :=
  { resetPin := pick fs .resetPin s.resetPin t.resetPin
    strap := pick fs .strap s.strap t.strap
    mem := {
      port := pick fs .port s.mem.port t.mem.port, waiting := pick fs .waiting s.mem.waiting t.mem.waiting,
      answer := pick fs .answer s.mem.answer t.mem.answer, reads := pick fs .reads s.mem.reads t.mem.reads,
      writeBacks := pick fs .writeBacks s.mem.writeBacks t.mem.writeBacks,
      lastOwn := pick fs .lastOwn s.mem.lastOwn t.mem.lastOwn, counter := pick fs .counter s.mem.counter t.mem.counter,
      mode := pick fs .arbMode s.mem.mode t.mem.mode, fault := pick fs .fault s.mem.fault t.mem.fault,
      noted := pick fs .noted s.mem.noted t.mem.noted }
    slots := pick fs .slots s.slots t.slots
    rowMap := pick fs .rowMap s.rowMap t.rowMap
    footnotes := pick fs .footnotes s.footnotes t.footnotes
    clock := pick fs .clock s.clock t.clock
    params := pick fs .params s.params t.params
    display := {
      drops := pick fs .drops s.display.drops t.display.drops, marks := pick fs .marks s.display.marks t.display.marks,
      probes := pick fs .probes s.display.probes t.display.probes,
      joinSeq := pick fs .joinSeq s.display.joinSeq t.display.joinSeq,
      pointer := pick fs .pointer s.display.pointer t.display.pointer,
      probeTimer := pick fs .probeTimer s.display.probeTimer t.display.probeTimer,
      mode := pick fs .wallMode s.display.mode t.display.mode, frame := pick fs .frame s.display.frame t.display.frame,
      step := pick fs .stepPhase s.display.step t.display.step }
    cues := {
      queue := pick fs .cueQueue s.cues.queue t.cues.queue, next := pick fs .nextOrder s.cues.next t.cues.next,
      link := pick fs .link s.cues.link t.cues.link, msg := pick fs .msg s.cues.msg t.cues.msg,
      gapTimer := pick fs .gapTimer s.cues.gapTimer t.cues.gapTimer,
      busyTimer := pick fs .busyTimer s.cues.busyTimer t.cues.busyTimer,
      strobe := pick fs .strobe s.cues.strobe t.cues.strobe, dataOut := pick fs .dataOut s.cues.dataOut t.cues.dataOut,
      ackIn := pick fs .ackIn s.cues.ackIn t.cues.ackIn, busyIn := pick fs .busyIn s.cues.busyIn t.cues.busyIn }
    notices := {
      entries := pick fs .entries s.notices.entries t.notices.entries,
      queue := pick fs .requests s.notices.queue t.notices.queue, fetch := pick fs .fetch s.notices.fetch t.notices.fetch,
      orphan := pick fs .orphan s.notices.orphan t.notices.orphan,
      rotIndex := pick fs .rotIndex s.notices.rotIndex t.notices.rotIndex,
      shown := pick fs .shown s.notices.shown t.notices.shown,
      dwellTimer := pick fs .dwellTimer s.notices.dwellTimer t.notices.dwellTimer }
    cmd := {
      staging := pick fs .staging s.cmd.staging t.cmd.staging, exec := pick fs .exec s.cmd.exec t.cmd.exec,
      response := pick fs .response s.cmd.response t.cmd.response, count := pick fs .count s.cmd.count t.cmd.count,
      config := pick fs .config s.cmd.config t.cmd.config }
    att := pick fs .att s.att t.att
    part := {
      state := pick fs .partState s.part.state t.part.state, reading := pick fs .reading s.part.reading t.part.reading,
      clamped := pick fs .clamped s.part.clamped t.part.clamped,
      configured := pick fs .configured s.part.configured t.part.configured }
    refTime := pick fs .refTime s.refTime t.refTime
    freeCount := pick fs .freeCount s.freeCount t.freeCount
    pending := pick fs .pending s.pending t.pending }

theorem pick_of_only {α : Type} {fs : List Leaf} {f : Leaf} {a b : α} (h : fs.contains f = true ∨ b = a) : pick fs f a b = b := by
  unfold pick
  split
  · rfl
  · exact (h.resolve_left ‹_›).symm

theorem only_of_pick {α : Type} {fs : List Leaf} {f : Leaf} {a b : α} (h : b = pick fs f a b) : fs.contains f = true ∨ b = a := by
  unfold pick at h
  split at h
  · exact .inl ‹_›
  · exact .inr h

/-- A frame as an equation. -/
theorem Only.overlay {fs : List Leaf} {s t : State} (h : Only fs s t) : t = overlay fs s t := by
  simp only [Machine.overlay,
    pick_of_only (h .resetPin), pick_of_only (h .strap), pick_of_only (h .port), pick_of_only (h .waiting),
    pick_of_only (h .answer), pick_of_only (h .reads), pick_of_only (h .writeBacks), pick_of_only (h .lastOwn),
    pick_of_only (h .counter), pick_of_only (h .arbMode), pick_of_only (h .fault), pick_of_only (h .noted),
    pick_of_only (h .slots), pick_of_only (h .rowMap), pick_of_only (h .footnotes), pick_of_only (h .clock),
    pick_of_only (h .params), pick_of_only (h .drops), pick_of_only (h .marks), pick_of_only (h .probes),
    pick_of_only (h .joinSeq), pick_of_only (h .pointer), pick_of_only (h .probeTimer), pick_of_only (h .wallMode),
    pick_of_only (h .frame), pick_of_only (h .stepPhase), pick_of_only (h .cueQueue), pick_of_only (h .nextOrder),
    pick_of_only (h .link), pick_of_only (h .msg), pick_of_only (h .gapTimer), pick_of_only (h .busyTimer),
    pick_of_only (h .strobe), pick_of_only (h .dataOut), pick_of_only (h .ackIn), pick_of_only (h .busyIn),
    pick_of_only (h .entries), pick_of_only (h .requests), pick_of_only (h .fetch), pick_of_only (h .orphan),
    pick_of_only (h .rotIndex), pick_of_only (h .shown), pick_of_only (h .dwellTimer), pick_of_only (h .staging),
    pick_of_only (h .exec), pick_of_only (h .response), pick_of_only (h .count), pick_of_only (h .config),
    pick_of_only (h .att), pick_of_only (h .partState), pick_of_only (h .reading), pick_of_only (h .clamped),
    pick_of_only (h .configured), pick_of_only (h .refTime), pick_of_only (h .freeCount), pick_of_only (h .pending)]

/-- A frame from its equation, where the views are kept or in the frame. -/
theorem Only.of_overlay {fs : List Leaf} {s t : State} (h : t = Machine.overlay fs s t)
    (flags : fs.contains .flags = true ∨ Same .flags s t := by exact .inr ⟨[], rfl⟩)
    (markSet : fs.contains .markSet = true ∨ Same .markSet s t := by exact .inr id)
    (slotCore : fs.contains .slotCore = true ∨ Same .slotCore s t := by exact .inr rfl)
    (slotRecord : fs.contains .slotRecord = true ∨ Same .slotRecord s t := by exact .inr rfl)
    (msgCore : fs.contains .msgCore = true ∨ Same .msgCore s t := by exact .inr rfl)
    (ownPort : fs.contains .ownPort = true ∨ Same .ownPort s t := by exact .inr (.inl rfl)) : Only fs s t
  | .flags => flags
  | .markSet => markSet
  | .slotCore => slotCore
  | .slotRecord => slotRecord
  | .msgCore => msgCore
  | .ownPort => ownPort
  | .resetPin => only_of_pick (congrArg (·.resetPin) h)
  | .strap => only_of_pick (congrArg (·.strap) h)
  | .port => only_of_pick (congrArg (·.mem.port) h)
  | .waiting => only_of_pick (congrArg (·.mem.waiting) h)
  | .answer => only_of_pick (congrArg (·.mem.answer) h)
  | .reads => only_of_pick (congrArg (·.mem.reads) h)
  | .writeBacks => only_of_pick (congrArg (·.mem.writeBacks) h)
  | .lastOwn => only_of_pick (congrArg (·.mem.lastOwn) h)
  | .counter => only_of_pick (congrArg (·.mem.counter) h)
  | .arbMode => only_of_pick (congrArg (·.mem.mode) h)
  | .fault => only_of_pick (congrArg (·.mem.fault) h)
  | .noted => only_of_pick (congrArg (·.mem.noted) h)
  | .slots => only_of_pick (congrArg (·.slots) h)
  | .rowMap => only_of_pick (congrArg (·.rowMap) h)
  | .footnotes => only_of_pick (congrArg (·.footnotes) h)
  | .clock => only_of_pick (congrArg (·.clock) h)
  | .params => only_of_pick (congrArg (·.params) h)
  | .drops => only_of_pick (congrArg (·.display.drops) h)
  | .marks => only_of_pick (congrArg (·.display.marks) h)
  | .probes => only_of_pick (congrArg (·.display.probes) h)
  | .joinSeq => only_of_pick (congrArg (·.display.joinSeq) h)
  | .pointer => only_of_pick (congrArg (·.display.pointer) h)
  | .probeTimer => only_of_pick (congrArg (·.display.probeTimer) h)
  | .wallMode => only_of_pick (congrArg (·.display.mode) h)
  | .frame => only_of_pick (congrArg (·.display.frame) h)
  | .stepPhase => only_of_pick (congrArg (·.display.step) h)
  | .cueQueue => only_of_pick (congrArg (·.cues.queue) h)
  | .nextOrder => only_of_pick (congrArg (·.cues.next) h)
  | .link => only_of_pick (congrArg (·.cues.link) h)
  | .msg => only_of_pick (congrArg (·.cues.msg) h)
  | .gapTimer => only_of_pick (congrArg (·.cues.gapTimer) h)
  | .busyTimer => only_of_pick (congrArg (·.cues.busyTimer) h)
  | .strobe => only_of_pick (congrArg (·.cues.strobe) h)
  | .dataOut => only_of_pick (congrArg (·.cues.dataOut) h)
  | .ackIn => only_of_pick (congrArg (·.cues.ackIn) h)
  | .busyIn => only_of_pick (congrArg (·.cues.busyIn) h)
  | .entries => only_of_pick (congrArg (·.notices.entries) h)
  | .requests => only_of_pick (congrArg (·.notices.queue) h)
  | .fetch => only_of_pick (congrArg (·.notices.fetch) h)
  | .orphan => only_of_pick (congrArg (·.notices.orphan) h)
  | .rotIndex => only_of_pick (congrArg (·.notices.rotIndex) h)
  | .shown => only_of_pick (congrArg (·.notices.shown) h)
  | .dwellTimer => only_of_pick (congrArg (·.notices.dwellTimer) h)
  | .staging => only_of_pick (congrArg (·.cmd.staging) h)
  | .exec => only_of_pick (congrArg (·.cmd.exec) h)
  | .response => only_of_pick (congrArg (·.cmd.response) h)
  | .count => only_of_pick (congrArg (·.cmd.count) h)
  | .config => only_of_pick (congrArg (·.cmd.config) h)
  | .att => only_of_pick (congrArg (·.att) h)
  | .partState => only_of_pick (congrArg (·.part.state) h)
  | .reading => only_of_pick (congrArg (·.part.reading) h)
  | .clamped => only_of_pick (congrArg (·.part.clamped) h)
  | .configured => only_of_pick (congrArg (·.part.configured) h)
  | .refTime => only_of_pick (congrArg (·.refTime) h)
  | .freeCount => only_of_pick (congrArg (·.freeCount) h)
  | .pending => only_of_pick (congrArg (·.pending) h)

end Sys2Proof.Machine
end

section
/-! PROOFS. The frames of the model's operations, unit by unit. -/

namespace Sys2Proof.Machine

set_option Elab.async false

/-! ## Tables, flags, and the completion of a command -/

theorem pend_only (c : EventClass) (s : State) : Only [.att] s (pend c s) :=
  .of_overlay rfl (flags := .inr ⟨[c], rfl⟩)

theorem pendIf_only (b : Bool) (c : EventClass) (s : State) : Only [.att] s (pendIf b c s) := by
  cases b
  · exact .of_overlay rfl
  · exact pend_only c s

theorem noteIf_only (b : Bool) (o : Nat) (s : State) : Only [.noted] s (noteIf b o s) := .of_overlay rfl

theorem noteEntry_only (i : Nat) (s t : State) : Only [.noted] t (noteEntry i s t) :=
  .foldl _ (fun _ _ => noteIf_only _ _ _) _ t

/-- Every view of a slot. -/
abbrev allOfSlots : List Leaf := [.slots, .slotCore, .slotRecord]

theorem setSlot_only (i : Nat) (x : Slot) (s : State) : Only allOfSlots s (setSlot i x s) :=
  .of_overlay rfl (slotCore := .inl rfl) (slotRecord := .inl rfl)

theorem modSlot_only (i : Nat) (f : Slot → Slot) (s : State) : Only allOfSlots s (modSlot i f s) := setSlot_only i _ s

/-- A view of the slots that is the same for a slot before and after its change. -/
theorem modSlot_map {α : Type} (g : Slot → α) (i : Nat) {f : Slot → Slot} (h : ∀ x, g (f x) = g x) (s : State) :
    (modSlot i f s).slots.map g = s.slots.map g := by
  simp only [modSlot, setSlot, List.map_set, h]
  rw [← List.map_set, setSlot_self]

/-- A change of the Service Change Logic's share of a slot. -/
theorem modSlot_share (i : Nat) (f : Slot → Slot) (s : State) (h : ∀ x, (f x).core = x.core := by exact fun _ => rfl)
    (h' : ∀ x, ((f x).staging, (f x).applied) = (x.staging, x.applied) := by exact fun _ => rfl) :
    Only [.slots] s (modSlot i f s) :=
  .of_overlay rfl (slotCore := .inr (modSlot_map Slot.core i h s))
    (slotRecord := .inr (modSlot_map (fun x => (x.staging, x.applied)) i h' s))

/-- A change of a slot's staging copy. -/
theorem modSlot_staging (i : Nat) (f : List Word → List Word) (s : State) :
    Only [.slots, .slotRecord] s (modSlot i (fun x => { x with staging := f x.staging }) s) :=
  .of_overlay rfl 
    (slotCore := .inr (modSlot_map Slot.core i (f := fun x => { x with staging := f x.staging }) (fun _ => rfl) s))
    (slotRecord := .inl rfl)

/-- A change of every slot that keeps records. -/
theorem mapSlots_only (f : Slot → Slot) (s : State) (h : ∀ x, ((f x).staging, (f x).applied) = (x.staging, x.applied)) :
    Only [.slots, .slotCore] s { s with slots := s.slots.map f } :=
  .of_overlay rfl (slotCore := .inl rfl) (slotRecord := .inr (by
    show (s.slots.map f).map _ = _
    rw [List.map_map]
    exact List.map_congr_left fun x _ => h x))

theorem unplace_only (i : Nat) (s : State) : Only [.rowMap] s (unplace i s) := .of_overlay rfl

theorem place_only (i : Nat) (s : State) : Only [.rowMap] s (place i s) := by
  unfold place
  exact .ite (.of_overlay rfl) (.of_overlay rfl)

theorem pruneRowMap_only (s : State) : Only [.rowMap] s (pruneRowMap s) := .of_overlay rfl

theorem mapFootnotes_only (f : Nat → Option Footnote → Option Footnote) (s : State) :
    Only [.footnotes] s (mapFootnotes f s) := .of_overlay rfl

theorem modDrop_only (a : Nat) (f : Drop → Drop) (s : State) : Only [.drops, .markSet] s (modDrop a f s) :=
  .of_overlay rfl (markSet := .inl rfl)

theorem modEntry_only (i : Nat) (f : Entry → Entry) (s : State) : Only [.entries] s (modEntry i f s) := .of_overlay rfl

theorem complete_only (p : Primary) (q : Secondary) (results : List Word) (s : State) :
    Only [.exec, .response, .count, .att] s (complete p q results s) := by
  unfold complete
  split
  · exact .refl _ s
  · exact .of_overlay rfl (flags := .inr ⟨[.commandDone], rfl⟩)

/-! ## Marks -/

/-- The form of the pending set is kept where each drop stays at most once in it and only ONLINE configured ones join. -/
theorem MarksSound.joinMark {s : State} (m : Mark) (h : MarksSound s) : MarksSound (joinMark m s) := by
  refine ⟨joinMark_nodup m s h.1, fun e he => ?_⟩
  rw [(joinMark_frame m s).dropAt]
  obtain he | ⟨hdrop, honline⟩ := (joinMark_marked m s e.drop).1 (List.mem_map_of_mem he)
  · obtain ⟨e', he', hdrop⟩ := List.mem_map.1 he
    exact hdrop ▸ h.2 e' he'
  · exact hdrop ▸ honline

theorem joinMark_only (m : Mark) (s : State) : Only [.marks, .joinSeq] s (joinMark m s) := by
  have hsound : MarksSound s → MarksSound (joinMark m s) := .joinMark m
  obtain ⟨marks, seq, h⟩ := joinMark_frame m s
  rw [h] at hsound ⊢
  exact .of_overlay rfl (markSet := .inr hsound)

theorem handMark_only (m : Mark) (s : State) : Only [.marks, .joinSeq] s (handMark m s) := by
  unfold handMark
  split
  · exact .ite (.foldl _ (fun _ _ => joinMark_only _ _) _ s) (joinMark_only m s)
  · exact joinMark_only m s

theorem handMarks_only (ms : List Mark) (s : State) : Only [.marks, .joinSeq] s (handMarks ms s) :=
  .foldl (fun t m => handMark m t) (fun t m => handMark_only m t) ms s

theorem handGroups_only (groups : List (List Mark)) (s : State) :
    Only [.marks, .joinSeq, .freeCount] s (handGroups groups s) := by
  have hn : Only [.freeCount] s { s with freeCount := s.freeCount + 1 } := .of_overlay rfl
  exact .ite (handMarks_only _ s).mono (hn.trans (handMarks_only _ _)).mono

/-- An event with the comparison of R89 has the frame of the event, and that of marks. -/
theorem compared_only {fs : List Leaf} (cause : Option Cause) {f : State → State} {s : State} (h : Only fs s (f s)) :
    Only (fs ++ [.marks, .joinSeq]) s (compared cause f s) := h.trans (handMarks_only _ _)

/-! ## The Cue Queue -/

/-- What handing a cue to the queue may change. -/
abbrev cueLeaves : List Leaf := [.cueQueue, .nextOrder, .msg, .att, .noted]

/-- What a removal from the queue may change. -/
abbrev removalLeaves : List Leaf := [.cueQueue, .msg, .noted]

theorem CueUnit.remove_msgCore (test : Cue → Bool) (u : CueUnit) :
    (u.remove test).msg.map Message.core = u.msg.map Message.core := by
  unfold CueUnit.remove
  simp only
  split
  · exact (Option.map_map ..).trans rfl
  · rfl

theorem CueUnit.replace_msgCore (c : Cue) (u : CueUnit) :
    (u.replace c).msg.map Message.core = u.msg.map Message.core := by
  unfold CueUnit.replace
  simp only
  split
  · exact (Option.map_map ..).trans rfl
  · rfl

theorem CueUnit.placeCue_msgCore (c : Cue) (u : CueUnit) :
    (u.placeCue c).1.msg.map Message.core = u.msg.map Message.core := by
  obtain ⟨-, h⟩ | ⟨-, -, h⟩ | ⟨-, -, v, -, -, h⟩ | ⟨-, -, -, h⟩ := CueUnit.placeCue_cases c u <;> rw [h]
  · exact CueUnit.replace_msgCore c u
  · rfl
  · exact CueUnit.remove_msgCore _ u

theorem removeCues_only (test : Cue → Bool) (s : State) : Only removalLeaves s (removeCues test s) := by
  have hmsg := CueUnit.remove_msgCore test s.cues
  unfold removeCues
  rw [CueUnit.remove_frame]
  exact .of_overlay rfl (msgCore := .inr hmsg)

theorem handCue_only (c : Cue) (s : State) : Only cueLeaves s (handCue c s).1 := by
  have h : Only [.cueQueue, .nextOrder, .msg] s { s with cues := (s.cues.placeCue c).1 } := by
    have hmsg := CueUnit.placeCue_msgCore c s.cues
    obtain ⟨q, n, m, h⟩ := CueUnit.placeCue_frame c s.cues
    rw [h] at hmsg ⊢
    exact .of_overlay rfl (msgCore := .inr hmsg)
  exact ((h.trans (pendIf_only _ .cueDropped _)).trans (noteIf_only _ summaryOffset _)).mono

theorem makeCue_only (c : Cue) (s : State) : Only cueLeaves s (makeCue c s) := handCue_only c s

theorem disown_only (i : Nat) (s : State) : Only [.msg] s (disown i s) := by
  refine .of_overlay rfl (msgCore := .inr ?_)
  refine (Option.map_map ..).trans (congrArg (s.cues.msg.map ·) (funext fun m => ?_))
  show Message.core (if m.cue.slot = some i then { m with gone := true } else m) = m.core
  split <;> rfl

/-! ## The Service Change Logic -/

theorem forget_only (i : Nat) (s : State) : Only [.cueQueue, .msg, .noted, .footnotes, .slots] s (forget i s) :=
  ((((removeCues_only (ofSlot i) s).trans (disown_only i _)).trans (mapFootnotes_only _ _)).trans (modSlot_share i _ _)).mono

theorem announceFromRecord_only (i : Nat) (s : State) : Only [.slots, .noted] s (announceFromRecord i s) :=
  ((modSlot_share i _ s (fun x => by split <;> rfl) (fun x => by split <;> rfl)).trans (noteIf_only _ _ _)).mono

theorem redirect_only (a q i : Nat) (s : State) : Only [.footnotes] s (redirect a q i s) := mapFootnotes_only _ s

theorem changeHighlight_only (i : Nat) (r : Record) (s : State) : Only [.slots] s (changeHighlight i r s) :=
  .ite (modSlot_share i _ s) (modSlot_share i _ s)

theorem changeCue_only (i : Nat) (r : Record) (s : State) : Only cueLeaves s (changeCue i r s) :=
  .ite (removeCues_only _ s).mono (makeCue_only _ s)

theorem cancelCues_only (i : Nat) (r : Record) (s : State) : Only cueLeaves s (cancelCues i r s) :=
  .ite ((removeCues_only _ s).trans (makeCue_only _ _)).mono (removeCues_only _ s).mono

theorem delayRule_only (i : Nat) (r : Record) (s : State) : Only cueLeaves s (delayRule i r s) :=
  .ite (.refl _ s) (.ite (makeCue_only _ s) (removeCues_only _ s).mono)

theorem commitCourse_only (i : Nat) (s : State) : Only removalLeaves s (commitCourse i s) := by
  unfold commitCourse
  split
  · exact removeCues_only _ s
  · exact removeCues_only _ s
  · exact .refl _ s

theorem refreshCues_only (i : Nat) (r : Record) (s : State) : Only removalLeaves s (refreshCues i r s) :=
  .ite (removeCues_only _ s) (.of_overlay rfl)

theorem reportBoards_only (i : Nat) (old : Slot) (r : Record) (s : State) :
    Only [.slots, .footnotes] s (reportBoards i old r s) :=
  .ite (.ite ((redirect_only _ _ i s).trans (changeHighlight_only i r _)).mono (redirect_only _ _ i s).mono) (.refl _ s)

theorem reportCancellation_only (i : Nat) (old : Slot) (r : Record) (s : State) :
    Only cueLeaves s (reportCancellation i old r s) :=
  .ite (.ite (cancelCues_only i r s) (.ite (removeCues_only _ s).mono (.refl _ s))) (.refl _ s)

theorem reportPlatformCue_only (i : Nat) (old : Slot) (r : Record) (s : State) :
    Only cueLeaves s (reportPlatformCue i old r s) :=
  .ite (.ite (removeCues_only _ s).mono (changeCue_only i r s)) (.refl _ s)

/-- What a report for a slot may change. -/
abbrev reportLeaves : List Leaf := [.slots, .footnotes, .cueQueue, .nextOrder, .msg, .att, .noted]

theorem loudReport_only (i : Nat) (old : Slot) (r : Record) (s : State) : Only reportLeaves s (loudReport i old r s) :=
  (((((((reportBoards_only i old r s).trans (reportCancellation_only i old r _)).trans
    (reportPlatformCue_only i old r _)).trans (delayRule_only i r _)).trans (commitCourse_only i _)).trans
    (refreshCues_only i r _)).trans (announceFromRecord_only i _)).mono

theorem quietReport_only (i : Nat) (s : State) : Only [.slots, .cueQueue, .msg, .noted] s (quietReport i s) :=
  ((removeCues_only _ s).trans (announceFromRecord_only i _)).mono

theorem commitReport_only (i : Nat) (old : Slot) (r : Record) (quiet : Bool) (s : State) :
    Only reportLeaves s (commitReport i old r quiet s) :=
  .ite (quietReport_only i s).mono (loudReport_only i old r s)

theorem moveReport_only (i : Nat) (left reached : SlotState) (s : State) :
    Only reportLeaves s (moveReport i left reached s) := by
  unfold moveReport
  split
  · split
    · exact .ite (makeCue_only _ s).mono (.refl _ s)
    · exact .refl _ s
  · exact (removeCues_only _ s).mono
  · exact (removeCues_only _ s).mono
  · exact (forget_only i s).mono
  · exact .refl _ s

theorem reportPresented_only (m : Message) (s : State) : Only [.slots] s (reportPresented m s) := by
  unfold reportPresented
  split
  · exact .ite (.refl _ s) (.ite (modSlot_share _ _ s) (.ite (modSlot_share _ _ s) (.refl _ s)))
  · exact .refl _ s

theorem setBackFrom_only (i : Nat) (s : State) :
    Only [.slots, .cueQueue, .msg, .noted, .marks, .joinSeq] s (setBackFrom i s) :=
  .ite ((removeCues_only _ s).trans (compared_only none (modSlot_share i _ _))).mono (.of_overlay rfl)

theorem reportAborted_only (m : Message) (s : State) :
    Only [.slots, .cueQueue, .msg, .noted, .marks, .joinSeq] s (reportAborted m s) := by
  unfold reportAborted
  split
  · exact .ite (setBackFrom_only _ s) (.refl _ s)
  · exact .refl _ s

/-! ## The Slot Table -/

/-- What taking or vacating a record may change. -/
abbrev slotLeaves : List Leaf :=
  [.slots, .slotCore, .slotRecord, .rowMap, .footnotes, .cueQueue, .nextOrder, .msg, .att, .noted, .marks, .joinSeq]

/-- The slot with its staged record applied, and placed in the row map (R29). -/
def recordPlaced (i : Nat) (s : State) : State := place i (setSlot i ((slotAt s i).take s.params s.clock) s)

theorem recordPlaced_only (i : Nat) (s : State) : Only (allOfSlots ++ [.rowMap]) s (recordPlaced i s) :=
  (setSlot_only i _ s).trans (place_only i _)

/-- What follows the placing of a record is the report of the commit. -/
theorem applyRecord_placed (i : Nat) (quiet : Bool) (s : State) : Only reportLeaves (recordPlaced i s) (applyRecord i quiet s) := by
  have h := commitReport_only i (slotAt s i) (recordOf (slotAt s i).staging) quiet (recordPlaced i s)
  exact .ite (h.trans (forget_only i _)).mono h

theorem takeRecord_placed (i : Nat) (quiet : Bool) (s : State) :
    Only (reportLeaves ++ [.marks, .joinSeq]) (recordPlaced i s) (takeRecord i quiet s) :=
  (applyRecord_placed i quiet s).trans (handMarks_only _ _)

theorem takeRecord_only (i : Nat) (quiet : Bool) (s : State) : Only slotLeaves s (takeRecord i quiet s) :=
  ((recordPlaced_only i s).trans (takeRecord_placed i quiet s)).mono

/-- The slot vacated and out of the row map (R31). -/
def slotEmptied (i : Nat) (result : LastResult) (generation : Nat) (s : State) : State :=
  unplace i (modSlot i (Slot.vacate result generation) s)

/-- What follows the vacating of a slot is that it is forgotten (R126). -/
theorem vacateSlot_emptied (i : Nat) (result : LastResult) (generation : Nat) (s : State) :
    Only [.slots, .footnotes, .cueQueue, .msg, .noted, .marks, .joinSeq] (slotEmptied i result generation s)
      (vacateSlot i result generation s) :=
  ((forget_only i (slotEmptied i result generation s)).trans (handMarks_only _ _)).mono

theorem vacateSlot_only (i : Nat) (result : LastResult) (generation : Nat) (s : State) :
    Only [.slots, .slotCore, .slotRecord, .rowMap, .footnotes, .cueQueue, .msg, .noted, .marks, .joinSeq] s
      (vacateSlot i result generation s) :=
  (((modSlot_only i _ s).trans (unplace_only i _)).trans (vacateSlot_emptied i result generation s)).mono

theorem considerCommit_only (i : Nat) (loading : Bool) (s : State) : Only slotLeaves s (considerCommit i loading s) := by
  unfold considerCommit
  simp only
  split
  · split
    · exact (modSlot_only i _ s).mono
    · exact takeRecord_only i _ s
  · exact (vacateSlot_only i _ _ s).mono

theorem loadOutcome_only (i : Nat) (faulted : Bool) (s : State) : Only slotLeaves s (loadOutcome i faulted s) := by
  unfold loadOutcome
  simp only
  split
  · exact (vacateSlot_only i _ _ s).mono
  · split
    · split
      · exact (vacateSlot_only i _ _ s).mono
      · exact takeRecord_only i _ s
    · exact (vacateSlot_only i _ _ s).mono

theorem Slot.rebase_record (x : Slot) : (x.rebase.staging, x.rebase.applied) = (x.staging, x.applied) := by
  unfold Slot.rebase
  split
  · split
    · split <;> rfl
    · rfl
  · rfl

theorem Slot.advance_record (q : Params) (c : Clock) (x : Slot) :
    ((x.advance q c).staging, (x.advance q c).applied) = (x.staging, x.applied) := by
  unfold Slot.advance
  split <;> rfl

theorem dayRoll_only (s : State) :
    Only [.slots, .slotCore, .rowMap, .footnotes, .cueQueue, .msg, .noted, .att] s (dayRoll s) := by
  have h₁ := mapSlots_only Slot.rebase s Slot.rebase_record
  have h₂ := (h₁.trans (pend_only .dayRoll _)).trans (pruneRowMap_only _)
  exact (h₂.trans (.foldl (fun t i => forget i t) (fun t i => forget_only i t) (forcedByRoll s) _)).mono

theorem reportMoves_only (moves : List (Nat × SlotState × SlotState)) (s : State) :
    Only reportLeaves s (reportMoves moves s) :=
  .foldl (fun t m => moveReport m.1 m.2.1 m.2.2 t) (fun t m => moveReport_only m.1 m.2.1 m.2.2 t) moves s

/-- What a second event may change. -/
abbrev secondLeaves : List Leaf :=
  [.slots, .slotCore, .rowMap, .footnotes, .cueQueue, .nextOrder, .msg, .att, .noted, .freeCount]

theorem reevaluate_only (s : State) : Only secondLeaves s (reevaluate s) := by
  have h₁ := mapSlots_only (Slot.advance s.params s.clock) s (Slot.advance_record s.params s.clock)
  have h₂ := h₁.trans (pruneRowMap_only _)
  have h₃ : ∀ t : State, Only [.freeCount] t { t with freeCount := t.freeCount + 1 } := fun t => .of_overlay rfl
  exact .ite (.ite (h₂.trans (reportMoves_only _ _)).mono ((h₂.trans (h₃ _)).trans (reportMoves_only _ _)).mono) (.refl _ s)

theorem runTimers_only (passed : Nat) (s : State) : Only [.slots, .footnotes] s (runTimers passed s) :=
  .of_overlay rfl (slotCore := .inr ((List.map_map ..).trans rfl)) (slotRecord := .inr ((List.map_map ..).trans rfl))

theorem advanceSlots_only (a : Advance) (s : State) : Only secondLeaves s (advanceSlots a s) :=
  (((Only.ite (dayRoll_only s) (.refl _ s)).trans (reevaluate_only _)).trans (runTimers_only _ _)).mono

/-! ## The Notice Unit -/

theorem showEntry_only (n : Option Nat) (s : State) : Only [.shown, .rotIndex, .dwellTimer] s (showEntry n s) := by
  unfold showEntry
  split <;> exact .of_overlay rfl

/-- What an advance of the rotation may change. -/
abbrev rotationLeaves : List Leaf := [.shown, .rotIndex, .dwellTimer, .marks, .joinSeq]

theorem rotate_only (s : State) : Only rotationLeaves s (rotate s) :=
  (showEntry_only _ s).trans (handMark_only _ _)

theorem reshow_only (i : Nat) (s : State) : Only rotationLeaves s (reshow i s) :=
  (showEntry_only _ s).trans (handMark_only _ _)

theorem rotateIfGone_only (s : State) : Only rotationLeaves s (rotateIfGone s) := by
  unfold rotateIfGone
  split
  · exact .ite (.refl _ s) (rotate_only s)
  · exact .refl _ s

/-- What the end of a fetch may change beside the fetch and its request. -/
abbrev endLeaves : List Leaf :=
  [.entries, .att, .cueQueue, .nextOrder, .msg, .noted, .shown, .rotIndex, .dwellTimer, .marks, .joinSeq]

/-- What a fetch may change. -/
abbrev fetchLeaves : List Leaf := [.requests, .fetch, .reads] ++ endLeaves

/-- The state in which the head request's fetch has ended. -/
def fetchEnded (rest : List FetchReq) (s : State) : State := { s with notices := { s.notices with queue := rest, fetch := none } }

theorem finishFetch_ended (e : FetchEnd) {s : State} {r : FetchReq} {rest : List FetchReq} (h : s.notices.queue = r :: rest) :
    Only endLeaves (fetchEnded rest s) (finishFetch e s) := by
  have h₂ := (modEntry_only r.entry (Entry.finish r ((s.notices.fetch.map (·.buf)).getD []) e) (fetchEnded rest s)).trans
    (pend_only .noticeDone _)
  unfold finishFetch
  rw [h]
  simp only
  split
  · have h₃ := h₂.trans (Only.ite (p := r.phrase = 0) (.refl cueLeaves _) (makeCue_only (phraseCue .notice r.phrase 0) _))
    split
    · exact (h₃.trans (rotate_only _)).mono
    · exact .ite (h₃.trans (reshow_only _ _)).mono h₃.mono
  · exact h₂.mono

theorem finishFetch_only (e : FetchEnd) (s : State) : Only ([.requests, .fetch] ++ endLeaves) s (finishFetch e s) := by
  cases h : s.notices.queue with
  | nil =>
    unfold finishFetch
    rw [h]
    exact .refl _ s
  | cons r rest =>
    have h₁ : Only [.requests, .fetch] s (fetchEnded rest s) := .of_overlay rfl
    exact h₁.trans (finishFetch_ended e h)

theorem requestFetch_only (addr : Nat) (s : State) : Only [.reads] s (requestFetch addr s) := .of_overlay rfl

theorem withFetch_only (f : Option Fetch) (s : State) : Only [.fetch] s { s with notices := { s.notices with fetch := f } } :=
  .of_overlay rfl

theorem beginFetches_only (n : Nat) (s : State) : Only fetchLeaves s (beginFetches n s) := by
  induction n generalizing s with
  | zero => exact .refl _ s
  | succ n ih =>
    unfold beginFetches
    split
    · exact .refl _ s
    · exact .ite (.refl _ s) (.ite
        (((withFetch_only _ s).trans (finishFetch_only _ _)).trans (ih _)).mono
        ((withFetch_only _ s).trans (requestFetch_only _ _)).mono)

theorem endFetch_only (e : FetchEnd) (s : State) : Only fetchLeaves s (endFetch e s) :=
  ((finishFetch_only e s).trans (beginFetches_only _ _)).mono

theorem continueFetch_only (f : Fetch) (s : State) : Only fetchLeaves s (continueFetch f s) :=
  .ite ((withFetch_only _ s).trans (endFetch_only _ _)).mono ((withFetch_only _ s).trans (requestFetch_only _ _)).mono

theorem endFragment_only (f : Fetch) (s : State) : Only fetchLeaves s (endFragment f s) := by
  have h (e : FetchEnd) : Only fetchLeaves s (endFetch e { s with notices := { s.notices with fetch := some f } }) :=
    ((withFetch_only _ s).trans (endFetch_only e _)).mono
  exact .ite (h _) (.ite (h _) (.ite (h _) (.ite (h _) (.ite (h _) (continueFetch_only _ s)))))

theorem fetchAnswer_only (w : Word) (f : Fetch) (s : State) : Only fetchLeaves s (fetchAnswer w f s) := by
  unfold fetchAnswer
  split
  · exact continueFetch_only _ s
  · exact continueFetch_only _ s
  · exact .ite (endFragment_only _ s) (continueFetch_only _ s)
  · exact .ite (endFragment_only _ s) (continueFetch_only _ s)

theorem deliverFetch_only (addr : Nat) (data : Word) (err : Bool) (s : State) :
    Only (.orphan :: fetchLeaves) s (deliverFetch addr data err s) := by
  have h : Only [.orphan] s { s with notices := { s.notices with orphan := false } } := .of_overlay rfl
  unfold deliverFetch
  split
  · exact (h.trans (beginFetches_only _ _)).mono
  · split
    · exact .refl _ s
    · exact .ite (endFetch_only _ s).mono (fetchAnswer_only _ _ s).mono

theorem queueFetch_only (i : Nat) (p : Post) (s : State) : Only fetchLeaves s (queueFetch i p s) := by
  have h : ∀ q, Only [.requests] s { s with notices := { s.notices with queue := q } } := fun q => .of_overlay rfl
  exact ((h _).trans (beginFetches_only _ _)).mono

theorem changeEntry_only (i : Nat) (f : Entry → Entry) (s : State) : Only [.entries, .noted] s (changeEntry i f s) :=
  (modEntry_only i f s).trans (noteEntry_only i s _)

theorem postNotice_only (words : List Word) (s : State) :
    Only (fetchLeaves ++ [.exec, .response, .count]) s (postNotice words s) := by
  have h : ∀ (i : Nat) (p : Post) (f : Entry → Entry) (results : List Word),
      Only (fetchLeaves ++ [.exec, .response, .count]) s
        (completeDone results (queueFetch i p (changeEntry i f s))) := fun i p f results =>
    (((changeEntry_only i f s).trans (queueFetch_only i p _)).trans (complete_only _ _ _ _)).mono
  unfold postNotice
  simp only
  split
  · exact (complete_only _ _ _ s).mono
  · split
    · exact h _ _ _ _
    · split
      · exact h _ _ _ _
      · exact (complete_only _ _ _ s).mono

theorem dropFetch_only (i : Nat) (s : State) : Only [.requests, .fetch, .orphan] s (dropFetch i s) := by
  unfold dropFetch
  simp only
  split <;> exact .of_overlay rfl

theorem withdrawNotice_only (words : List Word) (s : State) :
    Only ([.entries, .requests, .fetch, .orphan, .exec, .response, .count, .att] ++ rotationLeaves) s
      (withdrawNotice words s) := by
  unfold withdrawNotice
  split
  · exact (complete_only _ _ _ s).mono
  · exact ((((dropFetch_only _ s).trans (modEntry_only _ _ _)).trans (rotateIfGone_only _)).trans
      (complete_only _ _ _ _)).mono

theorem noticeMinutes_only (passed : Nat) (s : State) :
    Only [.entries, .shown, .rotIndex, .dwellTimer] s (noticeMinutes passed s).1 := by
  have h : Only [.entries] s (ageNotices passed s) := .of_overlay rfl
  unfold noticeMinutes
  simp only
  split
  · split
    · exact h.mono
    · exact (h.trans (showEntry_only _ _)).mono
  · exact h.mono

/-! ## The Time Base -/

/-- What a time advance may change. -/
abbrev timeLeaves : List Leaf :=
  [.slots, .slotCore, .rowMap, .footnotes, .clock, .att, .marks, .joinSeq, .cueQueue, .nextOrder, .msg, .noted, .entries, .shown,
    .rotIndex, .dwellTimer, .freeCount]

theorem withClock_only (c : Clock) (s : State) : Only [.clock] s { s with clock := c } := .of_overlay rfl

theorem timeAdvance_only (a : Advance) (stateChanged : Bool) (was s : State) :
    Only timeLeaves s (timeAdvance a stateChanged was s) := by
  unfold timeAdvance
  refine .ite ?_ (.ite (handMark_only _ s).mono (.refl _ s))
  have h := (withClock_only { s.clock with t := a.new } s).trans (advanceSlots_only a _)
  simp only
  split
  · exact ((h.trans (noticeMinutes_only _ _)).trans (handGroups_only _ _)).mono
  · exact (h.trans (handGroups_only _ _)).mono

theorem applyClock_only (c : Clock) (roll : Bool) (s : State) : Only timeLeaves s (applyClock c roll s) :=
  (((withClock_only _ s).trans (pendIf_only _ _ _)).trans (timeAdvance_only _ _ s _)).mono

theorem tickEvent_only (cause : TickCause) (s : State) : Only timeLeaves s (tickEvent cause s) := by
  unfold tickEvent
  split
  · exact applyClock_only _ _ s
  · exact .refl _ s

theorem timeEvent_only (cause : TickCause) (s : State) : Only (.refTime :: timeLeaves) s (timeEvent cause s) := by
  have h : Only [.refTime] s (countReference cause s) := by
    cases cause
    · exact .of_overlay rfl
    · exact .refl _ s
  exact (h.trans (tickEvent_only cause _)).mono

theorem loseLock_only (s : State) : Only [.clock, .att, .marks, .joinSeq] s (loseLock s) :=
  (((withClock_only _ s).trans (pend_only _ _)).trans (handMark_only _ _)).mono

theorem setSlew_only (d : Int) (s : State) : Only [.clock] s (setSlew d s) := withClock_only _ s

theorem leaveUnset_only (target : Nat) (s : State) : Only timeLeaves s (leaveUnset target s) :=
  ((((withClock_only _ s).trans (setSlew_only 0 _)).trans (pend_only _ _)).trans (timeAdvance_only _ _ _ _)).mono

theorem stepClock_only (target : Nat) (roll : Bool) (s : State) : Only timeLeaves s (stepClock target roll s) :=
  ((((setSlew_only 0 s).trans (pend_only _ _)).trans (noteIf_only _ _ _)).trans (timeAdvance_only _ _ _ _)).mono

theorem setClockCommand_only (words : List Word) (s : State) :
    Only (timeLeaves ++ [.exec, .response, .count]) s (setClockCommand words s) := by
  have h {u : State} (hu : Only timeLeaves s u) (results : List Word) :
      Only (timeLeaves ++ [.exec, .response, .count]) s (completeDone results u) :=
    (hu.trans (complete_only _ _ _ _)).mono
  exact .ite (complete_only _ _ _ s).mono (.ite (h (leaveUnset_only _ s) _) (.ite
    (.ite (h (setSlew_only _ s).mono _) (.ite (complete_only _ _ _ s).mono (.ite (h (stepClock_only _ _ s) _)
      (h (stepClock_only _ _ s) _))))
    (h (setSlew_only _ s).mono _)))

theorem changeSource_only (src : ClockSource) (s : State) :
    Only [.clock, .att, .marks, .joinSeq] s (changeSource src s) := by
  have h := (withClock_only (s.clock.withSource src) s).trans (pend_only .clockChange _)
  exact .ite h.mono (h.trans (handMark_only _ _)).mono

theorem setSourceCommand_only (words : List Word) (s : State) :
    Only [.clock, .marks, .joinSeq, .exec, .response, .count, .att] s (setSourceCommand words s) :=
  .ite (complete_only _ _ _ s).mono (.ite (complete_only _ _ _ s).mono
    ((changeSource_only _ s).trans (complete_only _ _ _ _)).mono)

theorem applyRoll_only (r : Nat) (s : State) : Only timeLeaves s (applyRoll r s) :=
  .ite (.refl _ s) (.ite (withClock_only _ s).mono
    (((withClock_only _ s).trans (pend_only _ _)).trans (timeAdvance_only _ _ _ _)).mono)

end Sys2Proof.Machine
end

section
/-! PROOFS. The frames of the links, the loader, the Memory Path and the commands. -/

namespace Sys2Proof.Machine

set_option Elab.async false

/-! ## The display link -/

/-- Taking marks out keeps the form of the pending set. -/
theorem MarksSound.filter {s : State} (p : Mark → Bool) (h : MarksSound s) (f : Option Frame) :
    MarksSound { s with display := { s.display with marks := s.display.marks.filter p, frame := f } } :=
  ⟨h.1.sublist (List.filter_sublist.map _), fun m hm => h.2 m (List.mem_of_mem_filter hm)⟩

theorem sendMark_only (m : Mark) (forStep : Bool) (s : State) : Only [.marks, .frame] s (sendMark m forStep s) :=
  .of_overlay rfl (markSet := .inr fun h => h.filter _ _)

theorem sendProbe_only (a : Nat) (s : State) : Only [.probes, .frame] s (sendProbe a s) := .of_overlay rfl

theorem withStep_only (p : StepPhase) (s : State) : Only [.stepPhase] s { s with display := { s.display with step := p } } :=
  .of_overlay rfl

/-- What serving a STEP FRAME may change. -/
abbrev stepLeaves : List Leaf := [.marks, .frame, .stepPhase, .exec, .response, .count, .att]

theorem serveStep_only (s : State) : Only stepLeaves s (serveStep s) := by
  unfold serveStep
  split
  · split
    · exact ((withStep_only _ s).trans (sendMark_only _ true _)).mono
    · exact ((withStep_only _ s).trans (complete_only _ _ _ _)).mono
  · exact .refl _ s

theorem sendFrame_only (s : State) : Only (.probes :: stepLeaves) s (sendFrame s) := by
  unfold sendFrame
  split
  · exact (serveStep_only s).mono
  · split
    · exact (sendMark_only _ _ s).mono
    · exact (sendProbe_only _ s).mono
    · exact .refl _ s

theorem openWindow_only (s : State) : Only [.frame] s (openWindow s) := .of_overlay rfl

theorem withMarks_only (ms : List Mark) (s : State) : Only [.marks, .markSet] s
    { s with display := { s.display with marks := ms } } := .of_overlay rfl (markSet := .inl rfl)

theorem withProbes_only (ps : List Probe) (s : State) :
    Only [.probes] s { s with display := { s.display with probes := ps } } := .of_overlay rfl

theorem takeOffline_only (a : Nat) (s : State) : Only [.drops, .markSet, .marks, .att] s (takeOffline a s) :=
  (((modDrop_only a _ s).trans (withMarks_only _ _)).trans (pend_only _ _)).mono

theorem countFailure_only (f : Frame) (s : State) : Only [.drops, .markSet, .marks, .joinSeq] s (countFailure f s) :=
  (modDrop_only _ _ s).trans (joinMark_only _ _)

theorem bringOnline_only (a : Nat) (s : State) : Only [.drops, .markSet, .probes, .marks, .joinSeq, .att] s (bringOnline a s) :=
  ((((modDrop_only a _ s).trans (withProbes_only _ _)).trans (pend_only _ _)).trans (joinMark_only _ _)).mono

theorem applyOutcome_only (f : Frame) (o : Exchange) (s : State) :
    Only [.drops, .markSet, .probes, .marks, .joinSeq, .att] s (applyOutcome f o s) :=
  .ite (.refl _ s) (.ite (.ite (bringOnline_only _ s) (.refl _ s)) (.ite (modDrop_only _ _ s).mono
    (.ite (takeOffline_only _ s).mono (countFailure_only f s).mono)))

/-- What the end of an exchange may change. -/
abbrev exchangeLeaves : List Leaf :=
  [.drops, .markSet, .probes, .marks, .joinSeq, .att, .frame, .stepPhase, .exec, .response, .count]

theorem endExchange_only (f : Frame) (o : Exchange) (s : State) : Only exchangeLeaves s (endExchange f o s) := by
  have h₁ : Only [.frame] s { s with display := { s.display with frame := none } } := .of_overlay rfl
  have h := h₁.trans (applyOutcome_only f o _)
  exact .ite ((h.trans (withStep_only _ _)).trans (complete_only _ _ _ _)).mono h.mono

theorem finishExchange_only (o : Exchange) (s : State) : Only (.noted :: exchangeLeaves) s (finishExchange o s) := by
  unfold finishExchange
  split
  · exact .ite (((endExchange_only _ o s).trans (noteIf_only _ _ _)).trans (serveStep_only _)).mono
      (endExchange_only _ o s).mono
  · exact .refl _ s

theorem receiveReply_only (bytes : List Byte) (s : State) : Only (.noted :: exchangeLeaves) s (receiveReply bytes s) := by
  unfold receiveReply
  split
  · exact finishExchange_only _ s
  · exact .refl _ s

theorem joinProbe_only (a : Nat) (s : State) : Only [.probes, .joinSeq] s (joinProbe a s) :=
  .ite (.refl _ s) (.of_overlay rfl)

theorem probeTick_only (s : State) : Only [.probes, .joinSeq, .pointer] s (probeTick s) := by
  unfold probeTick
  split
  · rename_i a _
    have h : Only [.pointer] s { s with display := { s.display with pointer := a } } := .of_overlay rfl
    exact (h.trans (joinProbe_only a _)).mono
  · exact .refl _ s

theorem probeDropsCommand_only (s : State) :
    Only [.probes, .joinSeq, .exec, .response, .count, .att] s (probeDropsCommand s) :=
  (Only.foldl (fun t a => joinProbe a t) (fun t a => joinProbe_only a t) (offlineDrops s) s).trans (complete_only _ _ _ _)

theorem changeMode_only (m : WallMode) (s : State) : Only [.wallMode, .marks, .joinSeq] s (changeMode m s) := by
  have h : Only [.wallMode] s { s with display := { s.display with mode := m } } := .of_overlay rfl
  exact .ite (h.trans (handMarks_only _ _)) h.mono

theorem setWallModeCommand_only (words : List Word) (s : State) :
    Only [.wallMode, .marks, .joinSeq, .exec, .response, .count, .att] s (setWallModeCommand words s) :=
  .ite (complete_only _ _ _ s).mono ((changeMode_only _ s).trans (complete_only _ _ _ _))

theorem stepFrameCommand_only (s : State) : Only stepLeaves s (stepFrameCommand s) :=
  .ite (complete_only _ _ _ s).mono ((withStep_only _ s).trans (serveStep_only _)).mono

theorem takeRoles_only (q : Params) (s : State) : Only [.drops, .markSet, .marks, .probes, .frame] s (takeRoles q s) :=
  .of_overlay rfl (markSet := .inl rfl)

/-! ## The cue link -/

/-- Every view of the message in flight. -/
abbrev allOfMsg : List Leaf := [.msg, .msgCore]

theorem withMsg_only (m : Option Message) (s : State) : Only allOfMsg s { s with cues := { s.cues with msg := m } } :=
  .of_overlay rfl (msgCore := .inl rfl)

theorem beginByte_only (s : State) : Only [.dataOut, .strobe, .msg, .msgCore] s (beginByte s) := by
  unfold beginByte
  split
  · exact .of_overlay rfl (msgCore := .inl rfl)
  · exact .refl _ s

theorem beginMessage_only (c : Cue) (s : State) :
    Only [.dataOut, .strobe, .msg, .msgCore, .link, .gapTimer] s (beginMessage c s) := by
  have h : Only [.msg, .msgCore, .link, .gapTimer] s
      { s with cues := { s.cues with msg := some (messageOf s c), link := .sending, gapTimer := none } } :=
    .of_overlay rfl (msgCore := .inl rfl)
  exact (h.trans (beginByte_only _)).mono

theorem beginNext_only (s : State) : Only [.dataOut, .strobe, .msg, .msgCore, .link, .gapTimer] s (beginNext s) := by
  unfold beginNext
  split
  · exact beginMessage_only _ s
  · exact .refl _ s

theorem modRecord_only (order : BitVec 32) (f : Cue → Cue) (s : State) : Only [.cueQueue] s (modRecord order f s) :=
  .of_overlay rfl

theorem dropRecord_only (order : BitVec 32) (s : State) : Only [.cueQueue] s (dropRecord order s) := .of_overlay rfl

theorem countPresentation_only (m : Message) (s : State) : Only [.cueQueue] s (countPresentation m s) := by
  unfold countPresentation
  split
  · split
    · exact .ite (dropRecord_only _ s) (modRecord_only _ _ s)
    · exact .refl _ s
  · exact .refl _ s

theorem clearMessage_only (s : State) : Only [.msg, .msgCore, .strobe] s (clearMessage s) :=
  .of_overlay rfl (msgCore := .inl rfl)

theorem enterGap_only (s : State) : Only [.link, .gapTimer] s (enterGap s) := .ite (.of_overlay rfl) (.of_overlay rfl)

theorem enterOff_only (s : State) : Only [.link, .gapTimer, .busyTimer] s (enterOff s) := .of_overlay rfl

theorem linkAfterPresentation_only (m : Message) (s : State) :
    Only [.link, .gapTimer, .busyTimer] s (linkAfterPresentation m s) := by
  have h : Only [.link] s { s with cues := { s.cues with link := .speaking } } := .of_overlay rfl
  exact .ite (enterOff_only s) (.ite (enterGap_only s).mono (.ite h.mono (enterGap_only s).mono))

/-- What the presentation of a message may change. -/
abbrev presentLeaves : List Leaf := [.cueQueue, .slots, .msg, .msgCore, .strobe, .link, .gapTimer, .busyTimer]

theorem present_only (m : Message) (s : State) : Only presentLeaves s (present m s) :=
  ((((countPresentation_only m s).trans (reportPresented_only m _)).trans (clearMessage_only _)).trans
    (linkAfterPresentation_only m _)).mono

theorem countAbort_only (m : Message) (s : State) : Only [.cueQueue, .att] s (countAbort m s) := by
  unfold countAbort
  split
  · split
    · exact .ite (modRecord_only _ _ s).mono ((dropRecord_only _ s).trans (pend_only _ _)).mono
    · exact .refl _ s
  · exact .refl _ s

theorem linkAfterAbort_only (s : State) : Only [.link, .gapTimer, .busyTimer] s (linkAfterAbort s) :=
  .ite (enterOff_only s) (enterGap_only s).mono

/-- What the abort of a message may change. -/
abbrev abortLeaves : List Leaf :=
  [.cueQueue, .att, .slots, .msg, .msgCore, .noted, .marks, .joinSeq, .strobe, .link, .gapTimer, .busyTimer]

theorem abort_only (m : Message) (s : State) : Only abortLeaves s (abort m s) :=
  ((((countAbort_only m s).trans (reportAborted_only m _)).trans (clearMessage_only _)).trans (linkAfterAbort_only _)).mono

theorem completeByte_only (m : Message) (s : State) : Only (.dataOut :: presentLeaves) s (completeByte m s) :=
  .ite (present_only m s).mono ((withMsg_only _ s).trans (beginByte_only _)).mono

theorem tryComplete_only (s : State) : Only (.dataOut :: presentLeaves) s (tryComplete s) := by
  unfold tryComplete
  split
  · exact .ite (completeByte_only _ s) (.refl _ s)
  · exact .refl _ s

theorem setAck_only (level : Bool) (s : State) : Only [.ackIn] s (setAck level s) := .of_overlay rfl

theorem setBusy_only (level : Bool) (s : State) : Only [.busyIn] s (setBusy level s) := .of_overlay rfl

theorem withPulse_only (m : Option Message) (strobe : Bool) (s : State) :
    Only [.msg, .msgCore, .strobe] s { s with cues := { s.cues with msg := m, strobe := strobe } } :=
  .of_overlay rfl (msgCore := .inl rfl)

theorem seeAck_only (e : AckEvent) (s : State) : Only (.dataOut :: presentLeaves) s (seeAck e s) := by
  unfold seeAck
  split
  · exact .ite ((withPulse_only _ _ s).trans (tryComplete_only _)).mono (.refl _ s)
  · exact .refl _ s

theorem ackEvent_only (e : AckEvent) (s : State) : Only (.ackIn :: .dataOut :: presentLeaves) s (ackEvent e s) := by
  unfold ackEvent
  split
  · exact (setAck_only _ s).trans (seeAck_only e _)
  · exact .refl _ s

theorem busyFall_only (s : State) : Only (.busyIn :: .att :: .dataOut :: presentLeaves) s (busyFall s) := by
  have h := setBusy_only false s
  unfold busyFall
  simp only
  split
  · exact (h.trans (tryComplete_only _)).mono
  · exact (h.trans (enterGap_only _)).mono
  · exact ((h.trans (enterGap_only _)).trans (pend_only _ _)).mono
  · exact h.mono

theorem pulseEnd_only (s : State) : Only (.dataOut :: presentLeaves) s (pulseEnd s) := by
  unfold pulseEnd
  split
  · exact ((withPulse_only _ _ s).trans (tryComplete_only _)).mono
  · exact .refl _ s

theorem spacingPassed_only (s : State) : Only (.dataOut :: presentLeaves) s (spacingPassed s) := by
  unfold spacingPassed
  split
  · exact completeByte_only _ s
  · exact .refl _ s

theorem byteLimitPassed_only (s : State) : Only abortLeaves s (byteLimitPassed s) := by
  unfold byteLimitPassed
  split
  · exact abort_only _ s
  · exact .refl _ s

theorem gapPassed_only (s : State) : Only [.link, .gapTimer] s (gapPassed s) := .of_overlay rfl

theorem stall_only (s : State) : Only [.link, .busyTimer, .att] s (stall s) :=
  .of_overlay rfl (flags := .inr ⟨[.cueLinkChange], rfl⟩)

theorem followMode_only (s : State) : Only [.link, .gapTimer, .busyTimer] s (followMode s) := by
  unfold followMode
  split
  · exact enterOff_only s
  · exact .refl _ s
  · exact .of_overlay rfl
  · exact (enterGap_only s).mono
  · exact (enterGap_only s).mono
  · exact .refl _ s

theorem issueCueCommand_only (words : List Word) (s : State) :
    Only (cueLeaves ++ [.exec, .response, .count]) s (issueCueCommand words s) := by
  unfold issueCueCommand
  split
  · exact (complete_only _ _ _ s).mono
  · unfold answerIssue
    split <;> exact ((handCue_only _ s).trans (complete_only _ _ _ _)).mono

theorem clearCuesCommand_only (words : List Word) (s : State) :
    Only (removalLeaves ++ [.exec, .response, .count, .att]) s (clearCuesCommand words s) :=
  (removeCues_only _ s).trans (complete_only _ _ _ _)

/-! ## The loader -/

theorem requestLoad_only (addr : Nat) (s : State) : Only [.reads] s (requestLoad addr s) := .of_overlay rfl

theorem setPart_only (p : PartState) (r : Reading) (s : State) : Only [.partState, .reading] s (setPart p r s) :=
  .of_overlay rfl

theorem beginReading_only (s : State) : Only [.partState, .reading, .reads] s (beginReading s) :=
  (setPart_only _ _ s).trans (requestLoad_only _ _)

theorem halt_only (s : State) : Only [.partState, .reading, .att] s (halt s) := (setPart_only _ _ s).trans (pend_only _ _)

theorem readTable_only (i k : Nat) (s : State) : Only [.reading, .reads] s (readTable i k s) := .of_overlay rfl

theorem discardBoards_only (s : State) : Only [.footnotes] s (discardBoards s) := mapFootnotes_only _ s

theorem applySource_only (src : ClockSource) (s : State) :
    Only [.clock, .att, .marks, .joinSeq] s (applySource src s) := .ite (.refl _ s) (changeSource_only src s)

theorem setParams_only (q : Params) (s : State) : Only [.params] s (setParams q s) := .of_overlay rfl

theorem noteConfigured_only (s : State) : Only [.configured] s (noteConfigured s) := .of_overlay rfl

/-- What a valid configuration may change. -/
abbrev configLeaves : List Leaf :=
  timeLeaves ++ [.drops, .markSet, .probes, .frame, .params, .link, .gapTimer, .busyTimer, .configured]

theorem applyConfig_only (words : List Word) (s : State) : Only configLeaves s (applyConfig words s) :=
  (((((((takeRoles_only _ s).trans (setParams_only _ _)).trans (discardBoards_only _)).trans (followMode_only _)).trans
    (applySource_only _ _)).trans (noteConfigured_only _)).trans (applyRoll_only _ _)).mono

theorem setClamped_only (b : Bool) (s : State) : Only [.clamped] s (setClamped b s) := .of_overlay rfl

theorem beginLoad_only (s : State) : Only [.partState, .reading, .att, .reads] s (beginLoad s) :=
  (((setPart_only _ _ s).trans (pend_only _ _)).trans (readTable_only _ _ _)).mono

/-- What an answer of the configuration reading may change. -/
abbrev readingLeaves : List Leaf :=
  configLeaves ++ [.slotRecord, .clamped, .partState, .reading, .reads, .exec, .response, .count]

theorem judge_only (words : List Word) (s : State) : Only readingLeaves s (judge words s) :=
  .ite (((setClamped_only _ s).trans (applyConfig_only words _)).trans (beginLoad_only _)).mono
    (((setClamped_only _ s).trans (halt_only _)).trans (complete_only _ _ _ _)).mono

theorem configAnswer_only (answers : List Word) (addr : Nat) (data : Word) (err : Bool) (s : State) :
    Only readingLeaves s (configAnswer answers addr data err s) :=
  .ite ((halt_only s).trans (complete_only _ _ _ _)).mono
    (.ite ((setPart_only _ _ s).trans (requestLoad_only _ _)).mono (judge_only _ s))

/-- What the end of the load may change. -/
abbrev loadDoneLeaves : List Leaf :=
  [.partState, .reading, .att, .marks, .joinSeq, .exec, .response, .count]

theorem loadDone_only (s : State) : Only loadDoneLeaves s (loadDone s) :=
  ((((setPart_only _ _ s).trans (pend_only _ _)).trans (handMarks_only _ _)).trans (complete_only _ _ _ _)).mono

theorem nextSlot_only (i : Nat) (s : State) : Only (.reads :: loadDoneLeaves) s (nextSlot i s) :=
  .ite (readTable_only _ _ s).mono (loadDone_only s).mono

theorem stageWord_only (i k : Nat) (w : Word) (s : State) : Only [.slots, .slotRecord] s (stageWord i k w s) :=
  modSlot_staging i (·.set k w) s

theorem tableAnswer_only (i k : Nat) (data : Word) (err : Bool) (s : State) :
    Only (slotLeaves ++ [.reads, .partState, .reading, .exec, .response, .count]) s (tableAnswer i k data err s) :=
  .ite ((loadOutcome_only i true s).trans (nextSlot_only i _)).mono
    (.ite ((stageWord_only i k data s).trans (readTable_only _ _ _)).mono
      (((stageWord_only i k data s).trans (loadOutcome_only i false _)).trans (nextSlot_only i _)).mono)

theorem deliverLoad_only (addr : Nat) (data : Word) (err : Bool) (s : State) :
    Only readingLeaves s (deliverLoad addr data err s) := by
  unfold deliverLoad
  split
  · exact .refl _ s
  · exact configAnswer_only _ addr data err s
  · exact (tableAnswer_only _ _ data err s).mono

/-! ## The Memory Path -/

theorem withPort_only (p : Port) (k : OwnKind) (s : State) :
    Only [.port, .ownPort, .lastOwn] s (setMem { s.mem with port := p, lastOwn := k } s) :=
  .of_overlay rfl (ownPort := .inl rfl)

theorem startOwn_only (s : State) : Only [.port, .ownPort, .lastOwn] s (startOwn s) := by
  unfold startOwn
  split
  · split
    · exact withPort_only _ _ s
    · exact .refl _ s
  · split
    · exact withPort_only _ _ s
    · exact .refl _ s

theorem startProcessor_only (s : State) : Only [.port, .waiting] s (startProcessor s) := by
  unfold startProcessor
  split
  · exact .of_overlay rfl (ownPort := .inr (.inr rfl))
  · exact .refl _ s

theorem startCounted_only (s : State) : Only [.port, .waiting, .counter] s (startCounted s) := by
  have h : Only [.counter] s (setMem { s.mem with counter := s.mem.counter + 1 } s) := .of_overlay rfl
  exact ((Only.ite (p := s.mem.ownWaiting = true) h (.refl _ s)).trans (startProcessor_only _)).mono

theorem setMode_only (m : MemMode) (s : State) : Only [.arbMode] s (setMode m s) := .of_overlay rfl

/-- What the arbiter may change. -/
abbrev arbiterLeaves : List Leaf := [.port, .ownPort, .waiting, .lastOwn, .counter, .arbMode]

theorem arbitrate_only (s : State) : Only arbiterLeaves s (arbitrate s) := by
  unfold arbitrate
  split
  · exact (startOwn_only s).mono
  · exact ((setMode_only _ s).trans (startProcessor_only _)).mono
  · exact .ite ((setMode_only _ s).trans (startOwn_only _)).mono (startCounted_only s).mono
  · exact (startOwn_only s).mono
  · exact .refl _ s

theorem dropWrite_only (s : State) : Only [.answer, .att] s (dropWrite s) :=
  .of_overlay rfl (flags := .inr ⟨[.protectedWrite], rfl⟩)

theorem startArrived_only (s : State) : Only [.port, .waiting, .counter, .arbMode] s (startArrived s) := by
  unfold startArrived
  split
  · exact .ite (.refl _ s) (startCounted_only s).mono
  · exact .ite (.refl _ s) ((setMode_only _ s).trans (startProcessor_only _)).mono

theorem arrive_only (a : Access) (s : State) :
    Only [.port, .waiting, .counter, .arbMode, .answer, .att] s (arrive a s) := by
  have h : Only [.waiting, .answer] s (setMem { s.mem with waiting := some a, answer := none } s) := .of_overlay rfl
  exact .ite (dropWrite_only s).mono (.ite (h.trans (startArrived_only _)).mono h.mono)

theorem finishAccess_only (x : Answer) (s : State) : Only [.port, .answer] s (finishAccess x s) :=
  .of_overlay rfl (ownPort := .inr (.inr rfl))

theorem capture_only (a : Access) (c : WordClass) (s : State) : Only [.staging, .config, .slots, .slotRecord] s (capture a c s) := by
  unfold capture
  split
  · exact .of_overlay rfl
  · exact .of_overlay rfl
  · exact (modSlot_staging _ (mergeWord · _ a) s).mono
  · exact (modSlot_staging _ (mergeWord · _ a) s).mono
  · exact .refl _ s

/-- What the completion of a processor write may change. -/
abbrev writeLeaves : List Leaf := [.staging, .config, .slots, .slotRecord, .port, .answer]

theorem finishWrite_only (err : Bool) (s : State) : Only writeLeaves s (finishWrite err s) := by
  unfold finishWrite
  split
  · exact (capture_only _ _ s).trans (finishAccess_only _ _)
  · exact .refl _ s

theorem finishRead_only (data : Word) (err : Bool) (s : State) : Only [.port, .answer] s (finishRead data err s) := by
  unfold finishRead
  split
  · exact finishAccess_only _ s
  · exact .refl _ s

theorem withAtt_only (a : Attention) (s : State) : Only [.att, .flags] s { s with att := a } :=
  .of_overlay rfl (flags := .inl rfl)

theorem finishEventRead_only (err : Bool) (s : State) : Only [.port, .answer, .att, .flags] s (finishEventRead err s) :=
  (finishAccess_only _ s).trans (withAtt_only _ _)

theorem finishFaultRead_only (err : Bool) (s : State) : Only [.port, .answer, .fault] s (finishFaultRead err s) := by
  have h : ∀ t : State, Only [.fault] t (setMem { t.mem with fault := none } t) := fun t => .of_overlay rfl
  exact (finishAccess_only _ s).trans (h _)

theorem finishMaskWrite_only (err : Bool) (s : State) : Only (.att :: .flags :: writeLeaves) s (finishMaskWrite err s) := by
  unfold finishMaskWrite
  split
  · exact ((finishWrite_only err s).trans (withAtt_only _ _)).mono
  · exact .refl _ s

theorem handCommit_only (i : Nat) (s : State) : Only slotLeaves s (handCommit i s) := by
  unfold handCommit
  split
  · exact considerCommit_only i _ s
  · exact .ite (considerCommit_only i _ s) (.refl _ s)
  · exact .refl _ s
  · exact .refl _ s

theorem finishCommit_only (err : Bool) (s : State) : Only (writeLeaves ++ slotLeaves) s (finishCommit err s) := by
  have hw := finishWrite_only err s
  obtain ⟨w, hw'⟩ : ∃ w, w = finishWrite err s := ⟨_, rfl⟩
  obtain ⟨cls, hcls⟩ : ∃ cls, cls = Access.cls := ⟨_, rfl⟩
  rw [← hw'] at hw
  rw [finishCommit, ← hw', ← hcls]
  split
  · split
    · exact hw.trans (handCommit_only _ _)
    · exact .refl _ s
  · exact .refl _ s

theorem recordFault_only (addr : Nat) (write : Bool) (source : FaultSource) (s : State) :
    Only [.fault, .att] s (recordFault addr write source s) :=
  .of_overlay rfl (flags := .inr ⟨[.memoryFault], rfl⟩)

theorem deliver_only (r : ReadReq) (data : Word) (err : Bool) (s : State) :
    Only (.orphan :: .requests :: .fetch :: readingLeaves) s (deliver r data err s) := by
  unfold deliver
  split
  · exact (deliverLoad_only _ data err s).mono
  · exact (deliverFetch_only _ data err s).mono

theorem finishOwnRead_only (data : Word) (err : Bool) (s : State) :
    Only (.port :: .counter :: .fault :: .orphan :: .requests :: .fetch :: readingLeaves) s (finishOwnRead data err s) := by
  unfold finishOwnRead
  split
  · have h : Only [.port, .reads, .counter] s
        (setMem { s.mem with port := .idle, reads := s.mem.reads.tail, counter := 0 } s) :=
      .of_overlay rfl (ownPort := .inr (.inr rfl))
    exact ((h.trans (.ite (recordFault_only _ _ _ _) (.refl _ _))).trans (deliver_only _ data err _)).mono
  · exact .refl _ s

theorem finishWriteBack_only (err : Bool) (s : State) :
    Only [.port, .writeBacks, .counter, .fault, .att] s (finishWriteBack err s) := by
  unfold finishWriteBack
  split
  · have h : Only [.port, .writeBacks, .counter] s
        (setMem { s.mem with port := .idle, writeBacks := afterWriteBack s.mem.writeBacks, counter := 0 } s) :=
      .of_overlay rfl (ownPort := .inr (.inr rfl))
    exact .ite (h.trans (recordFault_only _ _ _ _)).mono h.mono
  · exact .refl _ s

/-! ## Commands -/

theorem takeCommand_only (s : State) : Only [.exec, .att] s (takeCommand s) := by
  have h : Only [.exec] s { s with cmd := { s.cmd with exec := some s.cmd.staging } } := .of_overlay rfl
  exact h.trans (pendIf_only _ _ _)

/-- What every trigger write may change. -/
abbrev triggerLeaves : List Leaf := writeLeaves ++ [.exec, .response, .count, .att]

/-- A trigger write has the frame of the command it hands over, and that of every trigger write. -/
theorem handTrigger_only {fs : List Leaf} {allowed : PartState → Bool} {act : List Word → State → State}
    (h : ∀ words s, Only fs s (act words s)) (err : Bool) (s : State) :
    Only (triggerLeaves ++ fs) s (handTrigger allowed act err s) := by
  have hw := finishWrite_only err s
  have ht := hw.trans (takeCommand_only _)
  have keep {u : State} (hu : Only triggerLeaves s u) : Only (triggerLeaves ++ fs) s u := fun f =>
    (hu f).imp_left fun hf => List.contains_iff_mem.2 (List.mem_append_left _ (List.contains_iff_mem.1 hf))
  unfold handTrigger
  simp only
  split
  · exact keep (hw.trans (pend_only _ _)).mono
  · split
    · exact (ht.mono (gs := triggerLeaves)).trans (h _ _)
    · exact keep (ht.trans (complete_only _ _ _ _)).mono

/-! ## The end of an event -/

theorem settle_only (s t : State) : Only [.writeBacks, .noted, .busyTimer] t (settle s t) := .of_overlay rfl

end Sys2Proof.Machine
end

section
/-! PROOFS. What one step can do: the condition and the effect of every command, the leaves that an effect may change, and the
packaged induction step of an invariant. -/

namespace Sys2Proof.Machine

set_option Elab.async false

/-! ## Conditions and effects -/

/-- The condition under which a command's event can occur, the pin released. HARD_RESET and HARD_RESET_RELEASE have meanings of
their own. -/
def occurs (c : Instr) (s : State) : Bool :=
  match c with
  | .processorAccessArrives _ _ _ _ => portFree s
  | .arbiterStart => decide (s.mem.port = .idle)
  | .starvationLimitReached => atLimit s
  | .passThroughWrite _ => inFlightIs isPassThrough s
  | .capturedWrite _ => inFlightIs isCaptured s
  | .processorRead _ _ => inFlightIs isRead s
  | .protectedWrite addr data lanes =>
    portFree s && isProtected s.strap { addr := addr, write := true, data := data, lanes := lanes }
  | .eventWordRead _ => inFlightIs (isReadOf .event) s
  | .faultWordRead _ => inFlightIs (isReadOf .fault) s
  | .eventMaskWrite _ => inFlightIs isMaskWrite s
  | .ownReadComplete _ _ => (readInFlight s).isSome
  | .writeBackComplete _ => (writeBackInFlight s).isSome
  | .hardReset _ | .hardResetRelease => false
  | .commit _ => inFlightIs isCommit s
  | .internalReferenceSecond | .masterPulse => true
  | .lossTimerExpiry => s.clock.loss.isSome
  | .footnoteExpiry board cause => footnoteDue board cause s
  | .highlightExpiry slot cause => highlightDue slot cause s
  | .noticeExpiry entry cause => noticeDue entry cause s
  | .slewComplete cause => slewEnds cause s
  | .setClock _ => triggers codeSetClock s
  | .setSource _ => triggers codeSetSource s
  | .setWallMode _ => triggers codeSetWallMode s
  | .stepFrame _ => triggers codeStepFrame s
  | .postNotice _ => triggers codePostNotice s
  | .withdrawNotice _ => triggers codeWithdrawNotice s
  | .issueCue _ => triggers codeIssueCue s
  | .clearCues _ => triggers codeClearCues s
  | .probeDrops _ => triggers codeProbeDrops s
  | .reload _ => triggers codeReload s
  | .query _ => triggers codeQuery s
  | .unknownCommand _ => triggersUnknown s
  | .frameSend => canSend s
  | .frameTransmitted => transmitting s
  | .reply bytes => (replyTo s bytes).isSome
  | .replyWindowClose => windowIsOpen s
  | .dropOffline _ => thirdFailure s
  | .probeTimerExpiry => s.display.probeTimer.isSome
  | .messageBegins => (cueToBegin s).isSome
  | .acknowledgeInput e => (ackLevel e s.cues.ackIn).isSome
  | .strobePulseEnd => pulseRunning s
  | .timedSpacingExpiry => sendingIn (fun m => decide (m = .timed)) s
  | .busyFalls => s.cues.busyIn
  | .busyRises => !s.cues.busyIn
  | .byteLimitExpiry => sendingIn limited s
  | .gapTimerExpiry => s.cues.gapTimer.isSome
  | .busyTimerExpiry => s.cues.busyTimer.isSome
  | .notBeforePasses order => notBeforeDue order s
  | .tickerDwellExpiry => s.notices.dwellTimer.isSome

/-- What a command's event does, before the end of the event. -/
def effect (c : Instr) (s : State) : State :=
  match c with
  | .processorAccessArrives addr write data lanes => arrive { addr := addr, write := write, data := data, lanes := lanes } s
  | .arbiterStart => arbitrate s
  | .starvationLimitReached => startOwn (setMode .urgent s)
  | .passThroughWrite err | .capturedWrite err => finishWrite err s
  | .processorRead data err => finishRead data err s
  | .protectedWrite _ _ _ => dropWrite s
  | .eventWordRead err => finishEventRead err s
  | .faultWordRead err => finishFaultRead err s
  | .eventMaskWrite err => finishMaskWrite err s
  | .ownReadComplete data err => finishOwnRead data err s
  | .writeBackComplete err => finishWriteBack err s
  | .hardReset _ | .hardResetRelease => s
  | .commit err => finishCommit err s
  | .internalReferenceSecond => timeEvent .reference s
  | .masterPulse => timeEvent .pulse s
  | .lossTimerExpiry => loseLock s
  | .footnoteExpiry _ cause | .highlightExpiry _ cause | .noticeExpiry _ cause | .slewComplete cause => timeEvent cause s
  | .setClock err => handTrigger whenRunning setClockCommand err s
  | .setSource err => handTrigger whenRunning setSourceCommand err s
  | .setWallMode err => handTrigger whenRunning setWallModeCommand err s
  | .stepFrame err => handTrigger whenRunning (fun _ => stepFrameCommand) err s
  | .postNotice err => handTrigger whenRunning postNotice err s
  | .withdrawNotice err => handTrigger whenRunning withdrawNotice err s
  | .issueCue err => handTrigger whenRunning issueCueCommand err s
  | .clearCues err => handTrigger whenRunning clearCuesCommand err s
  | .probeDrops err => handTrigger whenRunning (fun _ => probeDropsCommand) err s
  | .reload err => handTrigger whenReloadable (fun _ => beginReading) err s
  | .query err => handTrigger whenever (fun _ => queryCommand) err s
  | .unknownCommand err => handTrigger whenever (fun _ => refuse .unknownCommand) err s
  | .frameSend => sendFrame s
  | .frameTransmitted => openWindow s
  | .reply bytes => receiveReply bytes s
  | .replyWindowClose => finishExchange .noReply s
  | .dropOffline cause => finishExchange (failOutcome cause) s
  | .probeTimerExpiry => probeTick s
  | .messageBegins => beginNext s
  | .acknowledgeInput e => ackEvent e s
  | .strobePulseEnd => pulseEnd s
  | .timedSpacingExpiry => spacingPassed s
  | .busyFalls => busyFall s
  | .busyRises => setBusy true s
  | .byteLimitExpiry => byteLimitPassed s
  | .gapTimerExpiry => gapPassed s
  | .busyTimerExpiry => stall s
  | .notBeforePasses order => passNotBefore order s
  | .tickerDwellExpiry => rotate s

/-- The hard reset pin's own commands. -/
def Instr.isReset : Instr → Bool
  | .hardReset _ | .hardResetRelease => true
  | _ => false

/-- With the pin released an input change is an event like any other. -/
theorem inputChange_released {s : State} (can : Bool) (level f : State → State) (h : s.resetPin = false) :
    inputChange can level f s = occur can f s := by
  simp [inputChange, h]

/-- With the pin released every other command is its effect, where its event can occur, and the end of the event. -/
theorem exec_released {c : Instr} {s : State} (hc : Instr.isReset c = false) (h : s.resetPin = false) :
    exec c s = .next (if occurs c s = true then settle s (effect c s) else s) := by
  have hocc : exec c s = occur (occurs c s) (effect c) s := by
    cases c with
    | hardReset straps => cases hc
    | hardResetRelease => cases hc
    | acknowledgeInput e => exact inputChange_released _ _ _ h
    | busyFalls => exact inputChange_released _ _ _ h
    | busyRises => exact inputChange_released _ _ _ h
    | _ => rfl
  simp only [hocc, occur_eq, h, true_and]

theorem exec_of_occurs {c : Instr} {s : State} (hc : Instr.isReset c = false) (h : s.resetPin = false)
    (ho : occurs c s = true) : exec c s = .next (settle s (effect c s)) := by
  rw [exec_released hc h, if_pos ho]

theorem exec_of_not_occurs {c : Instr} {s : State} (hc : Instr.isReset c = false) (h : s.resetPin = false)
    (ho : occurs c s = false) : exec c s = .next s := by
  rw [exec_released hc h, if_neg (by rw [ho]; decide)]

theorem occur_asserted {can : Bool} {f : State → State} {s : State} (h : s.resetPin = true) : occur can f s = .next s := by
  simp [occur, h]

theorem inputChange_asserted {s : State} (can : Bool) (level f : State → State) (h : s.resetPin = true) :
    inputChange can level f s = .next (if can = true then level s else s) := by
  cases can <;> simp [inputChange, occur, h]

/-- With the pin asserted every command but those of the pin changes nothing, or the level of an input. -/
theorem exec_asserted {c : Instr} {s : State} (hc : Instr.isReset c = false) (h : s.resetPin = true) :
    ∃ t, exec c s = .next t ∧ (t = s ∨ (∃ level, t = setAck level s) ∨ ∃ level, t = setBusy level s) := by
  cases c with
  | hardReset straps => cases hc
  | hardResetRelease => cases hc
  | acknowledgeInput e =>
    refine ⟨_, inputChange_asserted _ _ _ h, ?_⟩
    split
    · exact .inr (.inl ⟨_, rfl⟩)
    · exact .inl rfl
  | busyFalls =>
    refine ⟨_, inputChange_asserted _ _ _ h, ?_⟩
    split
    · exact .inr (.inr ⟨_, rfl⟩)
    · exact .inl rfl
  | busyRises =>
    refine ⟨_, inputChange_asserted _ _ _ h, ?_⟩
    split
    · exact .inr (.inr ⟨_, rfl⟩)
    · exact .inl rfl
  | starvationLimitReached => exact ⟨s, occur_asserted (f := effect .starvationLimitReached) h, .inl rfl⟩
  | _ => exact ⟨s, occur_asserted h, .inl rfl⟩

/-- Everything a command can do. -/
theorem exec_cases (c : Instr) (s : State) :
    ∃ t, exec c s = .next t ∧
      (t = s ∨
        (∃ straps, c = .hardReset straps ∧ t = State.afterReset straps s.cues.ackIn s.cues.busyIn s.freeCount s.pending) ∨
        (c = .hardResetRelease ∧ s.resetPin = true ∧ t = settle s (release s)) ∨
        (s.resetPin = true ∧ ((∃ level, t = setAck level s) ∨ ∃ level, t = setBusy level s)) ∨
        (Instr.isReset c = false ∧ s.resetPin = false ∧ occurs c s = true ∧ t = settle s (effect c s))) := by
  cases hc : Instr.isReset c with
  | true =>
    cases c with
    | hardReset straps => exact ⟨_, rfl, .inr (.inl ⟨straps, rfl, rfl⟩)⟩
    | hardResetRelease =>
      cases h : s.resetPin with
      | true => exact ⟨_, if_pos h, .inr (.inr (.inl ⟨rfl, rfl, rfl⟩))⟩
      | false => exact ⟨_, if_neg (by rw [h]; decide), .inl rfl⟩
    | _ => cases hc
  | false =>
    cases h : s.resetPin with
    | true =>
      obtain ⟨t, he, ht | ht⟩ := exec_asserted hc h
      · exact ⟨t, he, .inl ht⟩
      · exact ⟨t, he, .inr (.inr (.inr (.inl ⟨rfl, ht⟩)))⟩
    | false =>
      cases ho : occurs c s with
      | true => exact ⟨_, exec_of_occurs hc h ho, .inr (.inr (.inr (.inr ⟨rfl, rfl, rfl, rfl⟩)))⟩
      | false => exact ⟨s, exec_of_not_occurs hc h ho, .inl rfl⟩

/-! ## The leaves of each command -/

/-- The leaves that a command's effect may change. -/
def touched (c : Instr) : List Leaf :=
  match c with
  | .processorAccessArrives _ _ _ _ => [.port, .waiting, .counter, .arbMode, .answer, .att]
  | .arbiterStart | .starvationLimitReached => arbiterLeaves
  | .passThroughWrite _ | .capturedWrite _ => writeLeaves
  | .processorRead _ _ => [.port, .answer]
  | .protectedWrite _ _ _ => [.answer, .att]
  | .eventWordRead _ => [.port, .answer, .att, .flags]
  | .faultWordRead _ => [.port, .answer, .fault]
  | .eventMaskWrite _ => .att :: .flags :: writeLeaves
  | .ownReadComplete _ _ => .port :: .counter :: .fault :: .orphan :: .requests :: .fetch :: readingLeaves
  | .writeBackComplete _ => [.port, .writeBacks, .counter, .fault, .att]
  | .hardReset _ | .hardResetRelease => []
  | .commit _ => writeLeaves ++ slotLeaves
  | .internalReferenceSecond | .masterPulse => .refTime :: timeLeaves
  | .lossTimerExpiry => [.clock, .att, .marks, .joinSeq]
  | .footnoteExpiry _ _ | .highlightExpiry _ _ | .noticeExpiry _ _ | .slewComplete _ => .refTime :: timeLeaves
  | .setClock _ => triggerLeaves ++ timeLeaves
  | .setSource _ => triggerLeaves ++ [.clock, .marks, .joinSeq]
  | .setWallMode _ => triggerLeaves ++ [.wallMode, .marks, .joinSeq]
  | .stepFrame _ => triggerLeaves ++ [.marks, .frame, .stepPhase]
  | .postNotice _ => triggerLeaves ++ fetchLeaves
  | .withdrawNotice _ => triggerLeaves ++ [.entries, .requests, .fetch, .orphan] ++ rotationLeaves
  | .issueCue _ => triggerLeaves ++ cueLeaves
  | .clearCues _ => triggerLeaves ++ removalLeaves
  | .probeDrops _ => triggerLeaves ++ [.probes, .joinSeq]
  | .reload _ => triggerLeaves ++ [.partState, .reading, .reads]
  | .query _ | .unknownCommand _ => triggerLeaves
  | .frameSend => .probes :: stepLeaves
  | .frameTransmitted => [.frame]
  | .reply _ | .replyWindowClose | .dropOffline _ => .noted :: exchangeLeaves
  | .probeTimerExpiry => [.probes, .joinSeq, .pointer]
  | .messageBegins => [.dataOut, .strobe, .msg, .msgCore, .link, .gapTimer]
  | .acknowledgeInput _ => .ackIn :: .dataOut :: presentLeaves
  | .strobePulseEnd | .timedSpacingExpiry => .dataOut :: presentLeaves
  | .busyFalls => .busyIn :: .att :: .dataOut :: presentLeaves
  | .busyRises => [.busyIn]
  | .byteLimitExpiry => abortLeaves
  | .gapTimerExpiry => [.link, .gapTimer]
  | .busyTimerExpiry => [.link, .busyTimer, .att]
  | .notBeforePasses _ => [.cueQueue]
  | .tickerDwellExpiry => rotationLeaves

theorem effect_only (c : Instr) (s : State) : Only (touched c) s (effect c s) := by
  cases c with
  | processorAccessArrives => exact arrive_only _ s
  | arbiterStart => exact arbitrate_only s
  | starvationLimitReached => exact ((setMode_only _ s).trans (startOwn_only _)).mono
  | passThroughWrite err => exact finishWrite_only err s
  | capturedWrite err => exact finishWrite_only err s
  | processorRead data err => exact finishRead_only data err s
  | protectedWrite => exact dropWrite_only s
  | eventWordRead err => exact finishEventRead_only err s
  | faultWordRead err => exact finishFaultRead_only err s
  | eventMaskWrite err => exact finishMaskWrite_only err s
  | ownReadComplete data err => exact finishOwnRead_only data err s
  | writeBackComplete err => exact finishWriteBack_only err s
  | hardReset => exact .refl _ s
  | hardResetRelease => exact .refl _ s
  | commit err => exact finishCommit_only err s
  | internalReferenceSecond => exact timeEvent_only _ s
  | masterPulse => exact timeEvent_only _ s
  | lossTimerExpiry => exact loseLock_only s
  | footnoteExpiry => exact timeEvent_only _ s
  | highlightExpiry => exact timeEvent_only _ s
  | noticeExpiry => exact timeEvent_only _ s
  | slewComplete => exact timeEvent_only _ s
  | setClock err => exact (handTrigger_only setClockCommand_only err s).mono
  | setSource err => exact (handTrigger_only setSourceCommand_only err s).mono
  | setWallMode err => exact (handTrigger_only setWallModeCommand_only err s).mono
  | stepFrame err => exact (handTrigger_only (fun _ => stepFrameCommand_only) err s).mono
  | postNotice err => exact (handTrigger_only postNotice_only err s).mono
  | withdrawNotice err => exact (handTrigger_only withdrawNotice_only err s).mono
  | issueCue err => exact (handTrigger_only issueCueCommand_only err s).mono
  | clearCues err => exact (handTrigger_only clearCuesCommand_only err s).mono
  | probeDrops err => exact (handTrigger_only (fun _ => probeDropsCommand_only) err s).mono
  | reload err => exact (handTrigger_only (fun _ => beginReading_only) err s).mono
  | query err => exact (handTrigger_only (fun _ s => complete_only _ _ (queryResults s) s) err s).mono
  | unknownCommand err => exact (handTrigger_only (fun _ s => complete_only _ _ [] s) err s).mono
  | frameSend => exact sendFrame_only s
  | frameTransmitted => exact openWindow_only s
  | reply bytes => exact receiveReply_only bytes s
  | replyWindowClose => exact finishExchange_only _ s
  | dropOffline cause => exact finishExchange_only _ s
  | probeTimerExpiry => exact probeTick_only s
  | messageBegins => exact beginNext_only s
  | acknowledgeInput e => exact ackEvent_only e s
  | strobePulseEnd => exact pulseEnd_only s
  | timedSpacingExpiry => exact spacingPassed_only s
  | busyFalls => exact busyFall_only s
  | busyRises => exact setBusy_only true s
  | byteLimitExpiry => exact byteLimitPassed_only s
  | gapTimerExpiry => exact gapPassed_only s
  | busyTimerExpiry => exact stall_only s
  | notBeforePasses order => exact modRecord_only order _ s
  | tickerDwellExpiry => exact rotate_only s

theorem release_only (s : State) :
    Only [.resetPin, .probeTimer, .partState, .reading, .reads] s (release s) := .of_overlay rfl

/-! ## The step of an invariant -/

/-- A statement about a state that reads only these leaves of it. -/
def DependsOn (ds : List Leaf) (P : State → Prop) : Prop := ∀ s t, (∀ d ∈ ds, Same d s t) → P s → P t

/-- A statement is kept by a change outside the leaves that it reads. -/
theorem DependsOn.keep {ds fs : List Leaf} {P : State → Prop} (h : DependsOn ds P) {s t : State} (ho : Only fs s t)
    (hs : P s) (hd : ds.all (fun d => !fs.contains d) = true := by rfl) : P t :=
  h s t (fun d hmem => ho.same d (by simpa using List.all_eq_true.1 hd d hmem)) hs

theorem DependsOn.mono {ds ds' : List Leaf} {P : State → Prop} (h : DependsOn ds P)
    (hsub : ds.all ds'.contains = true := by rfl) : DependsOn ds' P := fun s t hd =>
  h s t fun d hmem => hd d (List.contains_iff_mem.1 (List.all_eq_true.1 hsub d hmem))

/-- A command may change a leaf that the statement reads. -/
def concerns (ds : List Leaf) (c : Instr) : Bool := ds.any (touched c).contains

/-- An invariant `P` that reads certain leaves is kept by every step, once it holds after reset, the release and the commands that may
change one of those leaves lead from it to a statement `P'` that reads the same leaves, and the end of an event leads back. -/
theorem step_keeps_within {ds : List Leaf} {P P' : State → Prop} (hP : DependsOn ds P) (hP' : DependsOn ds P')
    (hds : ds.all (fun d => ! [Leaf.ackIn, .busyIn, .pending].contains d) = true)
    (hweak : ∀ s, P s → P' s)
    (hreset : ∀ straps ack busy n queue, P (State.afterReset straps ack busy n queue))
    (hrelease : ∀ s, s.resetPin = true → P s → P' (release s))
    (hsettle : ∀ s t, P s → P' t → P (settle s t))
    (heffect : ∀ c s, s.resetPin = false → concerns ds c = true → occurs c s = true → P s → P' (effect c s))
    {s t : State} (h : step s = .next t) (hs : P s) : P t := by
  have hqueue : ∀ (q : List Instr) (s : State), P s → P { s with pending := q } := fun q s hs =>
    hP.keep (fs := [.ackIn, .busyIn, .pending]) (Only.mono (fs := [.pending]) (.of_overlay rfl)) hs hds
  unfold step at h
  split at h
  · cases h
    exact hs
  · rename_i c rest _
    have hs' := hqueue rest s hs
    generalize ({ s with pending := rest } : State) = u at h hs'
    obtain ⟨t', he, hcases⟩ := exec_cases c u
    rw [he] at h
    cases h
    obtain rfl | ⟨straps, -, rfl⟩ | ⟨-, hpin, rfl⟩ | ⟨-, ⟨level, rfl⟩ | ⟨level, rfl⟩⟩ | ⟨-, hpin, ho, rfl⟩ := hcases
    · exact hs'
    · exact hreset _ _ _ _ _
    · exact hsettle u _ hs' (hrelease u hpin hs')
    · exact hP.keep (setAck_only level u).mono hs' hds
    · exact hP.keep (setBusy_only level u).mono hs' hds
    · refine hsettle u _ hs' ?_
      cases hc : concerns ds c with
      | true => exact heffect c u hpin hc ho hs'
      | false => exact hP'.keep (effect_only c u) (hweak u hs') (by simpa [concerns] using hc)

/-- An invariant that reads certain leaves is kept by every step, once it holds after reset and is kept by the release, by the end
of an event, and by the commands that may change one of those leaves. -/
theorem step_keeps {ds : List Leaf} {P : State → Prop} (hP : DependsOn ds P)
    (hds : ds.all (fun d => ! [Leaf.ackIn, .busyIn, .pending].contains d) = true)
    (hreset : ∀ straps ack busy n queue, P (State.afterReset straps ack busy n queue))
    (hrelease : ∀ s, s.resetPin = true → P s → P (release s))
    (hsettle : ∀ s t, P s → P t → P (settle s t))
    (heffect : ∀ c s, s.resetPin = false → concerns ds c = true → occurs c s = true → P s → P (effect c s))
    {s t : State} (h : step s = .next t) (hs : P s) : P t :=
  step_keeps_within hP hP hds (fun _ h => h) hreset hrelease hsettle heffect h hs

end Sys2Proof.Machine
end

section
/-! PROOFS. The Attention Unit and the Time Base keep their invariants (sections 3 and 10.2). -/

namespace Sys2Proof.Machine

set_option Elab.async false

/-! ## The flags -/

/-- A request flag is set only for a class that is pending and not masked, bit by bit. -/
theorem attentionSound_iff (s : State) :
    AttentionSound s ↔ ∀ i < 14, s.att.request.getLsbD i = true →
      s.att.pending.getLsbD i = true ∧ s.att.mask.getLsbD i = true := by
  unfold AttentionSound
  constructor
  · intro h i hi hr
    have hbit := congrArg (fun w : BitVec 14 => w.getLsbD i) h
    simpa [hi, hr] using hbit
  · intro h
    refine BitVec.eq_of_getLsbD_eq fun i hi => ?_
    have hbit := h i hi
    cases hr : s.att.request.getLsbD i with
    | false => simp [hr]
    | true => simp [hi, hr, hbit hr]

theorem AttentionSound.pend {s : State} (c : EventClass) (h : AttentionSound s) : AttentionSound (pend c s) := by
  rw [attentionSound_iff] at h ⊢
  intro i hi hr
  simp only [Machine.pend, Attention.pend, BitVec.getLsbD_or, BitVec.getLsbD_and, Bool.or_eq_true,
    Bool.and_eq_true] at hr ⊢
  obtain hr | ⟨hc, hm⟩ := hr
  · exact ⟨.inl (h i hi hr).1, (h i hi hr).2⟩
  · exact ⟨.inr hc, hm⟩

/-- A new mask keeps the flags sound (R171). -/
theorem AttentionSound.setMask {s : State} (m : BitVec 14) (h : AttentionSound s) :
    AttentionSound { s with att := s.att.setMask m } := by
  rw [attentionSound_iff] at h ⊢
  intro i hi hr
  simp only [Attention.setMask, BitVec.getLsbD_or, BitVec.getLsbD_and, BitVec.getLsbD_not, BitVec.getLsbD_xor,
    hi, decide_true, Bool.true_and, Bool.or_eq_true, Bool.and_eq_true] at hr ⊢
  obtain ⟨hreq, hsame⟩ | ⟨⟨-, hm⟩, hp⟩ := hr
  · obtain ⟨hp, hmask⟩ := h i hi hreq
    exact ⟨hp, by simpa [hmask] using hsame⟩
  · exact ⟨hp, hm⟩

theorem AttentionSound.acknowledge (s : State) : AttentionSound { s with att := s.att.acknowledge } := by
  rw [attentionSound_iff]
  intro i _ hr
  simp [Attention.acknowledge] at hr

theorem attentionSound_dependsOn : DependsOn [.flags] AttentionSound := by
  intro s t hd hs
  obtain ⟨events, hatt⟩ : FlagsPended s t := hd .flags (by decide)
  have hafter : ∀ (events : List EventClass) (u : State), AttentionSound u →
      AttentionSound { u with att := u.att.after events } := by
    intro events
    induction events with
    | nil => exact fun _ h => h
    | cons c rest ih => exact fun u h => ih (Machine.pend c u) (h.pend c)
  have ht := hafter events s hs
  rw [← hatt] at ht
  exact ht

/-- Of the commands, a read of the event word and a write of the event mask change flags otherwise than by pending events. -/
theorem effect_keeps_attention {c : Instr} {s : State} (hc : concerns [.flags] c = true) (hs : AttentionSound s) :
    AttentionSound (effect c s) := by
  cases c
  case eventWordRead err => exact AttentionSound.acknowledge _
  case eventMaskWrite err =>
    show AttentionSound (finishMaskWrite err s)
    unfold finishMaskWrite
    split
    · exact AttentionSound.setMask (s := { finishWrite err s with att := s.att }) _ hs
    · exact hs
  all_goals exact (Bool.false_ne_true hc).elim

theorem attentionSound_afterReset (straps : BitVec 4) (ack busy : Bool) (n : Nat) (queue : List Instr) :
    AttentionSound (State.afterReset straps ack busy n queue) := by
  show 0#14 &&& ~~~(0#14 &&& 0#14) = 0
  decide

theorem step_keeps_attention {s t : State} (h : step s = .next t) (hs : AttentionSound s) : AttentionSound t :=
  step_keeps attentionSound_dependsOn rfl attentionSound_afterReset
    (fun s _ hs => attentionSound_dependsOn.keep (release_only s) hs)
    (fun s t _ ht => attentionSound_dependsOn.keep (settle_only s t) ht)
    (fun _ _ _ hc _ hs => effect_keeps_attention hc hs) h hs

/-! ## The Time Base -/

/-- The Time Base's ranges, its state against its source, and when the loss timer runs. -/
def Clock.Sound (c : Clock) : Prop :=
  c.t < 86400 ∧ c.roll < 1440 ∧ -120 ≤ c.slew ∧ c.slew ≤ 120 ∧ (c.state = .running → c.source = .internal) ∧
    (c.state = .locked ∨ c.state = .freerun → c.source ≠ .internal) ∧ (c.loss.isSome = true ↔ c.state = .locked)

theorem clockSound_iff (s : State) : ClockSound s ↔ s.clock.Sound := Iff.rfl

theorem clockSound_dependsOn : DependsOn [.clock] ClockSound := by
  intro s t hd hs
  have hclock : t.clock = s.clock := hd .clock (by decide)
  rw [clockSound_iff] at hs ⊢
  rwa [hclock]

namespace Clock.Sound

variable {c : Clock}

theorem setT (h : c.Sound) {t : Nat} (ht : t < 86400) : ({ c with t := t } : Clock).Sound := ⟨ht, h.2⟩

theorem setSlew (h : c.Sound) {d : Int} (hlo : -120 ≤ d) (hhi : d ≤ 120) (b : Bool) :
    ({ c with slew := d, holdNext := b } : Clock).Sound := ⟨h.1, h.2.1, hlo, hhi, h.2.2.2.2⟩

theorem setRoll (h : c.Sound) {r : Nat} (hr : r < 1440) : ({ c with roll := r } : Clock).Sound := ⟨h.1, hr, h.2.2⟩

/-- A source with the clock state that follows from it (R48, R58). -/
theorem withSource (h : c.Sound) (src : ClockSource) : (c.withSource src).Sound := by
  obtain ⟨ht, hroll, -⟩ := h
  have hstate : (c.withSource src).state = if c.state = .unset then .unset else setState src := rfl
  refine ⟨ht, hroll, Int.negSucc_le_zero _, Int.natCast_nonneg 120, ?_⟩
  rw [hstate]
  by_cases hc : c.state = .unset
  · simp [hc, Clock.withSource]
  · cases src <;> simp [hc, Clock.withSource, setState]

theorem relock (h : c.Sound) (hsrc : c.source ≠ .internal) : c.relock.Sound := by
  obtain ⟨ht, hroll, hlo, hhi, -⟩ := h
  exact ⟨ht, hroll, hlo, hhi, fun h => (by simp [Clock.relock] at h), fun _ => hsrc, by simp [Clock.relock]⟩

end Clock.Sound

theorem wrapT_lt {t : Nat} (h : t < 86400 + 86400) : (wrapT t).1 < 86400 := by
  unfold wrapT
  split <;> simp only <;> omega

/-- A tick keeps every field but T, the remainder and the slew phase. -/
theorem Clock.Sound.tick {c : Clock} (h : c.Sound) : c.tick.1.Sound := by
  obtain ⟨ht, hroll, hlo, hhi, hrest⟩ := h
  have h2 : (wrapT (c.t + 2)).1 < 86400 := wrapT_lt (by omega)
  have h1 : (wrapT (c.t + 1)).1 < 86400 := wrapT_lt (by omega)
  unfold Clock.tick
  split
  · exact ⟨h2, hroll, by show -120 ≤ c.slew - 1; omega, by show c.slew - 1 ≤ 120; omega, hrest⟩
  split
  · exact ⟨ht, hroll, by show -120 ≤ c.slew + 1; omega, by show c.slew + 1 ≤ 120; omega, hrest⟩
  split
  · exact ⟨h1, hroll, hlo, hhi, hrest⟩
  · exact ⟨h1, hroll, hlo, hhi, hrest⟩

theorem Clock.Sound.snap {c : Clock} (h : c.Sound) : c.snap.1.Sound := by
  have ht := h.1
  unfold Clock.snap
  split
  · exact h.setT (wrapT_lt (by omega))
  · exact h.setT (by omega)

/-- Whatever the internal second or the master pulse makes of the clock is sound. -/
theorem Clock.Sound.event {c : Clock} {e : Clock × Bool} {cause : TickCause} (h : c.Sound) (he : c.event cause = some e) :
    e.1.Sound := by
  have hpulse : (match c.source with
      | .internal => none
      | .masterSecond => some (c.relock.tick)
      | .masterMinute => some (c.relock.snap)) = some e → e.1.Sound := by
    cases hsrc : c.source with
    | internal => exact fun hx => by cases hx
    | masterSecond => exact fun hx => Option.some.inj hx ▸ (h.relock (by simp [hsrc])).tick
    | masterMinute => exact fun hx => Option.some.inj hx ▸ (h.relock (by simp [hsrc])).snap
  unfold Clock.event at he
  split at he
  · cases he
  · exact Option.some.inj he ▸ h.tick
  · exact Option.some.inj he ▸ h.tick
  · split at he
    · split at he
      · cases he
      · exact Option.some.inj he ▸ h.tick
    · cases he
  · cases he
  · exact hpulse he

/-! ## The clock after each operation of the Time Base -/

/-- A time advance gives T its new value, and changes nothing else of the clock. -/
theorem timeAdvance_clock (a : Advance) (stateChanged : Bool) (was s : State) :
    (timeAdvance a stateChanged was s).clock = if a.happens = true then { s.clock with t := a.new } else s.clock := by
  unfold timeAdvance
  split
  · have h := (advanceSlots_only a (setT a.new s)).same .clock
    simp only
    split
    · exact (((advanceSlots_only a _).trans (noticeMinutes_only _ _)).trans (handGroups_only _ _)).same .clock
    · exact ((advanceSlots_only a _).trans (handGroups_only _ _)).same .clock
  · split
    · exact (handMark_only _ s).same .clock
    · rfl

/-- Where an advance brings nothing, T does not differ. -/
theorem timeAdvance_clock_of_old {a : Advance} {s : State} (hold : a.old = s.clock.t) (stateChanged : Bool) (was : State) :
    (timeAdvance a stateChanged was s).clock = { s.clock with t := a.new } := by
  rw [timeAdvance_clock]
  split
  · rfl
  · rename_i h
    have hnew : a.new = s.clock.t := by
      simp only [Advance.happens, Bool.or_eq_true, decide_eq_true_eq, not_or, not_not] at h
      exact h.2.trans hold
    rw [hnew]

/-- A clock event that gives the clock a new value gives it that value. -/
theorem applyClock_clock (c : Clock) (roll : Bool) (s : State) : (applyClock c roll s).clock = c :=
  (timeAdvance_clock_of_old (s := pendIf (decide (c.state ≠ s.clock.state)) .clockChange (setClockKeepT c s)) rfl _ _).trans rfl

theorem tickEvent_clock (cause : TickCause) (s : State) :
    (tickEvent cause s).clock = ((s.clock.event cause).map (·.1)).getD s.clock := by
  unfold tickEvent
  split
  · rename_i h
    rw [applyClock_clock, h]
    rfl
  · rename_i h
    rw [h]
    rfl

theorem countReference_clock (cause : TickCause) (s : State) : (countReference cause s).clock = s.clock := by
  cases cause <;> rfl

/-- The clock after a second of the internal reference or a master pulse. -/
theorem timeEvent_clock (cause : TickCause) (s : State) :
    (timeEvent cause s).clock = ((s.clock.event cause).map (·.1)).getD s.clock := by
  rw [timeEvent, tickEvent_clock, countReference_clock]

theorem loseLock_clock (s : State) : (loseLock s).clock = { s.clock with state := .freerun, loss := none } :=
  (handMark_only _ _).same .clock

theorem leaveUnset_clock (target : Nat) (s : State) :
    (leaveUnset target s).clock =
      { s.clock with t := target, state := setState s.clock.source, slew := 0, holdNext := false } :=
  timeAdvance_clock _ _ _ _

theorem stepClock_clock (target : Nat) (roll : Bool) (s : State) :
    (stepClock target roll s).clock = { s.clock with t := target, slew := 0, holdNext := false } :=
  timeAdvance_clock_of_old rfl _ _

theorem changeSource_clock (src : ClockSource) (s : State) : (changeSource src s).clock = s.clock.withSource src := by
  unfold changeSource
  simp only
  split
  · rfl
  · exact (handMark_only _ _).same .clock

theorem applyRoll_clock (r : Nat) (s : State) :
    (applyRoll r s).clock =
      if r = s.clock.roll then s.clock
      else if s.clock.state = .unset then { s.clock with roll := r }
      else { s.clock with roll := r, t := (((s.clock.civil : Int) - 60 * r) % 86400).toNat } := by
  unfold applyRoll
  split
  · rfl
  split
  · rfl
  · exact timeAdvance_clock_of_old rfl _ _

/-! ## The clock stays sound -/

theorem targetT_lt (roll : Nat) (p : ClockTarget) : targetT roll p < 86400 := by
  unfold targetT
  omega

theorem timeEvent_keeps_clock (cause : TickCause) {s : State} (h : ClockSound s) : ClockSound (timeEvent cause s) := by
  rw [clockSound_iff] at h ⊢
  rw [timeEvent_clock]
  cases he : s.clock.event cause with
  | none => exact h
  | some e => exact h.event he

/-- The clock that leaves UNSET had no loss timer running. -/
theorem leaveUnset_keeps_clock {target : Nat} {s : State} (ht : target < 86400) (hu : s.clock.state = .unset)
    (h : ClockSound s) : ClockSound (leaveUnset target s) := by
  rw [clockSound_iff] at h ⊢
  rw [leaveUnset_clock]
  obtain ⟨-, hroll, -, -, -, -, hlock⟩ := h
  have hloss : s.clock.loss.isSome = false := by simpa [hu] using hlock
  refine ⟨ht, hroll, Int.negSucc_le_zero _, Int.natCast_nonneg 120, ?_⟩
  cases hsrc : s.clock.source <;> simp [setState, hloss]

theorem correction_lt (t target : Nat) : correction t target < 43200 := by
  unfold correction
  omega

theorem stepClock_keeps_clock {target : Nat} {s : State} (ht : target < 86400) (roll : Bool) (h : ClockSound s) :
    ClockSound (stepClock target roll s) := by
  rw [clockSound_iff] at h ⊢
  rw [stepClock_clock]
  exact (h.setT ht).setSlew (by decide) (by decide) false

theorem ClockSound.complete {s : State} (h : ClockSound s) (p : Primary) (q : Secondary) (results : List Word) :
    ClockSound (complete p q results s) := clockSound_dependsOn.keep (complete_only p q results s) h

theorem setClockCommand_keeps_clock (words : List Word) {s : State} (h : ClockSound s) :
    ClockSound (setClockCommand words s) := by
  obtain ⟨target, htarget⟩ : ∃ target, target = targetT s.clock.roll (clockTargetOf words) := ⟨_, rfl⟩
  obtain ⟨d, hd⟩ : ∃ d, d = correction s.clock.t target := ⟨_, rfl⟩
  have ht : target < 86400 := htarget ▸ targetT_lt _ _
  have hd' : d < 43200 := hd ▸ correction_lt _ _
  have hs := h.1
  unfold setClockCommand
  simp only [← htarget, ← hd]
  split
  · exact h.complete _ _ _
  split
  · rename_i hu
    exact (leaveUnset_keeps_clock ht hu h).complete _ _ _
  split
  · split
    · exact ClockSound.complete (s := setSlew 0 s) (Clock.Sound.setSlew h (by decide) (by decide) false) _ _ _
    split
    · exact h.complete _ _ _
    split
    · exact (stepClock_keeps_clock (by omega) true h).complete _ _ _
    · exact (stepClock_keeps_clock (by omega) false h).complete _ _ _
  · rename_i hstep
    have hsmall : d.natAbs ≤ 120 := by
      simp only [mustStep, Bool.or_eq_true, decide_eq_true_eq, not_or] at hstep
      omega
    exact ClockSound.complete (s := setSlew d s) (Clock.Sound.setSlew h (by omega) (by omega) false) _ _ _

theorem changeSource_keeps_clock (src : ClockSource) {s : State} (h : ClockSound s) : ClockSound (changeSource src s) := by
  rw [clockSound_iff] at h ⊢
  rw [changeSource_clock]
  exact h.withSource src

theorem setSourceCommand_keeps_clock (words : List Word) {s : State} (h : ClockSound s) :
    ClockSound (setSourceCommand words s) := by
  unfold setSourceCommand
  simp only
  split
  · exact h.complete _ _ _
  split
  · exact h.complete _ _ _
  · exact (changeSource_keeps_clock _ h).complete _ _ _

theorem applyRoll_keeps_clock {r : Nat} (hr : r < 1440) {s : State} (h : ClockSound s) : ClockSound (applyRoll r s) := by
  rw [clockSound_iff] at h ⊢
  rw [applyRoll_clock]
  split
  · exact h
  split
  · exact h.setRoll hr
  · exact (h.setRoll hr).setT (by omega)

theorem loseLock_keeps_clock {s : State} (hl : s.clock.loss.isSome = true) (h : ClockSound s) : ClockSound (loseLock s) := by
  rw [clockSound_iff] at h ⊢
  rw [loseLock_clock]
  obtain ⟨ht, hroll, hlo, hhi, -, hmaster, hlock⟩ := h
  exact ⟨ht, hroll, hlo, hhi, fun h => (by simp at h), fun _ => hmaster (.inl (hlock.1 hl)), by simp⟩

/-! ## Commands -/

theorem inFlightIs_iff {test : Access → WordClass → Bool} {s : State} :
    inFlightIs test s = true ↔ ∃ a, inPort s = some a ∧ test a (a.cls s.strap) = true := by
  unfold inFlightIs
  cases inPort s <;> simp

/-- A processor write in flight completes, captured by the class of its word. -/
theorem finishWrite_of_inPort {s : State} {a : Access} {c : WordClass} (ha : inPort s = some a) (hc : a.cls s.strap = c)
    (err : Bool) : finishWrite err s = finishAccess (.writeDone err) (capture a c s) := by
  simp only [finishWrite, ha, hc]

/-- A trigger write captures nothing in the part's copies. -/
theorem finishWrite_of_trigger {s : State} (h : inFlightIs isTrigger s = true) (err : Bool) :
    finishWrite err s = finishAccess (.writeDone err) s := by
  obtain ⟨a, ha, ht⟩ := inFlightIs_iff.1 h
  have hcls : a.cls s.strap = .trigger := by
    simp only [isTrigger, Bool.and_eq_true, decide_eq_true_eq] at ht
    exact ht.2
  exact finishWrite_of_inPort ha hcls err

/-- What taking a command changes (R166). -/
abbrev takingLeaves : List Leaf := [.port, .answer, .exec, .response, .count, .att]

/-- The hand-over of a command keeps what the command keeps, and what does not read the leaves that taking it changes. -/
theorem handTrigger_keeps {P : State → Prop} {ds : List Leaf} (hP : DependsOn ds P) {allowed : PartState → Bool}
    {act : List Word → State → State} {err : Bool} {s : State} (ho : inFlightIs isTrigger s = true)
    (hact : ∀ words u, u.part = s.part → P u → P (act words u)) (hs : P s)
    (hds : ds.all (fun d => !takingLeaves.contains d) = true := by rfl) : P (handTrigger allowed act err s) := by
  have hw := finishAccess_only (.writeDone err) s
  have ht := hw.trans (takeCommand_only _)
  unfold handTrigger
  simp only [finishWrite_of_trigger ho]
  split
  · exact hP.keep (hw.trans (pend_only _ _)).mono hs hds
  · split
    · exact hact _ _ rfl (hP.keep ht.mono hs hds)
    · exact hP.keep (ht.trans (complete_only _ _ _ _)).mono hs hds

theorem trigger_of_triggers {code : Nat} {s : State} (h : triggers code s = true) : inFlightIs isTrigger s = true :=
  (Bool.and_eq_true _ _ ▸ h).1

/-! ## Answers of own reads -/

/-- What an answer of an own read changes beside what its requester does with a configuration, a slot or a fetch. -/
abbrev answerLeaves : List Leaf :=
  [.port, .reads, .counter, .fault, .att, .partState, .reading, .clamped, .exec, .response, .count]

/-- The parts of what the answer of an own read may bring. -/
structure KeepsAnswers (P : State → Prop) : Prop where
  config : ∀ words s, configValid s.strap (paramsOf words) = true → P s → P (applyConfig words s)
  stage : ∀ i k w s, P s → P (stageWord i k w s)
  load : ∀ i faulted s, P s → P (loadOutcome i faulted s)
  refresh : ∀ s, P s → P (fullRefresh s)
  fetch : ∀ addr data err s, P s → P (deliverFetch addr data err s)

section

variable {P : State → Prop} {ds : List Leaf} (hP : DependsOn ds P) (h : KeepsAnswers P)
  (hds : ds.all (fun d => !answerLeaves.contains d) = true)

include hP h hds

theorem judge_keeps (words : List Word) {s : State} (hs : P s) : P (judge words s) := by
  have hc := setClamped_only (configClamped words) s
  have ht : P (setClamped (configClamped words) s) := hP.keep (hc.mono (gs := answerLeaves)) hs hds
  unfold judge
  simp only
  split
  · rename_i hvalid
    exact hP.keep ((beginLoad_only _).mono (gs := answerLeaves)) (h.config words _ hvalid ht) hds
  · exact hP.keep (((halt_only _).trans (complete_only _ _ _ _)).mono (gs := answerLeaves)) ht hds

theorem configAnswer_keeps (answers : List Word) (addr : Nat) (data : Word) (err : Bool) {s : State} (hs : P s) :
    P (configAnswer answers addr data err s) := by
  unfold configAnswer
  split
  · exact hP.keep (((halt_only s).trans (complete_only _ _ _ _)).mono (gs := answerLeaves)) hs hds
  split
  · exact hP.keep (((setPart_only _ _ s).trans (requestLoad_only _ _)).mono (gs := answerLeaves)) hs hds
  · exact judge_keeps hP h hds _ hs

theorem nextSlot_keeps (i : Nat) {s : State} (hs : P s) : P (nextSlot i s) := by
  unfold nextSlot
  split
  · exact hP.keep ((readTable_only _ _ s).mono (gs := answerLeaves)) hs hds
  · have ht : P (pend .loadDone (setPart .running .idle s)) :=
      hP.keep (((setPart_only _ _ s).trans (pend_only _ _)).mono (gs := answerLeaves)) hs hds
    exact hP.keep ((complete_only _ _ _ _).mono (gs := answerLeaves)) (h.refresh _ ht) hds

theorem tableAnswer_keeps (i k : Nat) (data : Word) (err : Bool) {s : State} (hs : P s) :
    P (tableAnswer i k data err s) := by
  unfold tableAnswer
  split
  · exact nextSlot_keeps hP h hds i (h.load i true s hs)
  split
  · exact hP.keep ((readTable_only _ _ _).mono (gs := answerLeaves)) (h.stage i k data s hs) hds
  · exact nextSlot_keeps hP h hds i (h.load i false _ (h.stage i k data s hs))

theorem finishOwnRead_keeps (data : Word) (err : Bool) {s : State} (hs : P s) : P (finishOwnRead data err s) := by
  unfold finishOwnRead
  split
  · rename_i r _
    have hread : Only [.port, .reads, .counter] s
        (setMem { s.mem with port := .idle, reads := s.mem.reads.tail, counter := 0 } s) :=
      .of_overlay rfl (ownPort := .inr (.inr rfl))
    have ht : P (if err then recordFault r.addr false r.source.fault
        (setMem { s.mem with port := .idle, reads := s.mem.reads.tail, counter := 0 } s)
        else setMem { s.mem with port := .idle, reads := s.mem.reads.tail, counter := 0 } s) :=
      hP.keep (hread.trans (.ite (recordFault_only _ _ _ _) (.refl _ _)) |>.mono (gs := answerLeaves)) hs hds
    simp only
    unfold deliver
    split
    · unfold deliverLoad
      split
      · exact ht
      · exact configAnswer_keeps hP h hds _ _ _ _ ht
      · exact tableAnswer_keeps hP h hds _ _ _ _ ht
    · exact h.fetch _ _ _ _ ht
  · exact hs

end

/-! ## The step -/

theorem applySource_keeps_clock (src : ClockSource) {s : State} (h : ClockSound s) : ClockSound (applySource src s) := by
  unfold applySource
  split
  · exact h
  · exact changeSource_keeps_clock src h

theorem clamp_le {lo hi : Nat} (h : lo ≤ hi) (x : Nat) : clamp lo hi x ≤ hi := by
  unfold clamp
  split
  · exact h
  split <;> omega

theorem le_clamp {lo hi : Nat} (h : lo ≤ hi) (x : Nat) : lo ≤ clamp lo hi x := by
  unfold clamp
  split
  · exact le_refl lo
  split <;> omega

theorem applyConfig_keeps_clock (words : List Word) {s : State} (h : ClockSound s) : ClockSound (applyConfig words s) := by
  have hroll : cfRoll.value words < 1440 := Nat.lt_succ_of_le (clamp_le (by decide) _)
  have h₁ : ClockSound (followMode (discardBoards (setParams (paramsOf words) (takeRoles (paramsOf words) s)))) :=
    clockSound_dependsOn.keep ((((takeRoles_only _ s).trans (setParams_only _ _)).trans (discardBoards_only _)).trans
      (followMode_only _)) h
  have h₂ := applySource_keeps_clock (sourceOf (rawSource words)) h₁
  exact applyRoll_keeps_clock hroll (clockSound_dependsOn.keep (noteConfigured_only _) h₂)

theorem clockSound_keepsAnswers : KeepsAnswers ClockSound where
  config words _ _ h := applyConfig_keeps_clock words h
  stage i k w s h := clockSound_dependsOn.keep (stageWord_only i k w s) h
  load _ _ s h := clockSound_dependsOn.keep (loadOutcome_only _ _ s) h
  refresh s h := clockSound_dependsOn.keep (handMarks_only _ s) h
  fetch _ _ _ s h := clockSound_dependsOn.keep (deliverFetch_only _ _ _ s) h

theorem effect_keeps_clock {c : Instr} {s : State} (hc : concerns [.clock] c = true) (ho : occurs c s = true)
    (hs : ClockSound s) : ClockSound (effect c s) := by
  cases c
  case ownReadComplete data err => exact finishOwnRead_keeps clockSound_dependsOn clockSound_keepsAnswers rfl data err hs
  case internalReferenceSecond => exact timeEvent_keeps_clock _ hs
  case masterPulse => exact timeEvent_keeps_clock _ hs
  case lossTimerExpiry => exact loseLock_keeps_clock ho hs
  case footnoteExpiry => exact timeEvent_keeps_clock _ hs
  case highlightExpiry => exact timeEvent_keeps_clock _ hs
  case noticeExpiry => exact timeEvent_keeps_clock _ hs
  case slewComplete => exact timeEvent_keeps_clock _ hs
  case setClock err =>
    exact handTrigger_keeps clockSound_dependsOn (trigger_of_triggers ho)
      (fun words _ _ h => setClockCommand_keeps_clock words h) hs
  case setSource err =>
    exact handTrigger_keeps clockSound_dependsOn (trigger_of_triggers ho)
      (fun words _ _ h => setSourceCommand_keeps_clock words h) hs
  all_goals exact (Bool.false_ne_true hc).elim

theorem clockSound_afterReset (straps : BitVec 4) (ack busy : Bool) (n : Nat) (queue : List Instr) :
    ClockSound (State.afterReset straps ack busy n queue) := by
  show Clock.reset.Sound
  simp [Clock.Sound, Clock.reset]

theorem step_keeps_clock {s t : State} (h : step s = .next t) (hs : ClockSound s) : ClockSound t :=
  step_keeps clockSound_dependsOn rfl clockSound_afterReset
    (fun s _ hs => clockSound_dependsOn.keep (release_only s) hs)
    (fun s t _ ht => clockSound_dependsOn.keep (settle_only s t) ht)
    (fun _ _ _ hc ho hs => effect_keeps_clock hc ho hs) h hs

/-- Settles O53: the flags change by pended events, by the new mask and by the acknowledgement; the clock by the operations of the
Time Base. -/
theorem stepKeepsAttentionAndClockSound : Obligations.StepKeepsAttentionAndClockSound :=
  fun _ _ hatt hclock h => ⟨step_keeps_attention h hatt, step_keeps_clock h hclock⟩

end Sys2Proof.Machine
end

section
/-! PROOFS. The parameters in force stay valid, and the write-back set keeps its form (sections 1.5, 1.6 and 10.3). -/

namespace Sys2Proof.Machine

set_option Elab.async false

/-! ## The parameters in force -/

theorem paramsSound_dependsOn : DependsOn [.params, .strap] ParamsSound := by
  intro s t hd hs
  have hparams : t.params = s.params := hd .params (by decide)
  have hstrap : t.strap = s.strap := hd .strap (by decide)
  unfold ParamsSound
  rwa [hparams, hstrap]

theorem ConfigField.value_within (f : ConfigField) (words : List Word) (h : f.least ≤ f.most := by decide) :
    Within f.least (f.value words) f.most := ⟨le_clamp h _, clamp_le h _⟩

/-- The values of a configuration block, as brought into range, lie in their ranges (R175). -/
theorem paramsOf_inRange (words : List Word) : ParamsInRange (paramsOf words) :=
  ⟨cfW.value_within words, cfP.value_within words, (cfFirstWall.value_within words).2, (cfClockDrop.value_within words).2,
    (cfTickerDrop.value_within words).2, (cfBoardBase.value_within words).2, (cfLead.value_within words).2,
    (cfWindow.value_within words).2, cfDwell.value_within words, cfHold.value_within words, cfChangeHold.value_within words,
    cfHorizon.value_within words, cfThreshold.value_within words, cfStep.value_within words, cfStarvation.value_within words,
    cfMemLimit.value_within words, (cfGap.value_within words).2, cfByteLimit.value_within words, cfSpacing.value_within words,
    cfBusyLimit.value_within words, (cfRepeats.value_within words).2, cfInterval.value_within words⟩

theorem configValid_iff {strap : BitVec 4} {q : Params} : configValid strap q = true ↔ LayoutValid strap q := by
  simp only [configValid, LayoutValid, Bool.and_eq_true, decide_eq_true_eq, and_assoc]

/-- A configuration applied is in force. -/
theorem applyConfig_params (words : List Word) (s : State) : (applyConfig words s).params = paramsOf words :=
  (((((discardBoards_only (setParams (paramsOf words) (takeRoles (paramsOf words) s))).trans (followMode_only _)).trans
    (applySource_only _ _)).trans (noteConfigured_only _)).trans (applyRoll_only _ _)).same .params

theorem applyConfig_strap (words : List Word) (s : State) : (applyConfig words s).strap = s.strap :=
  (applyConfig_only words s).same .strap

theorem paramsSound_keepsAnswers : KeepsAnswers ParamsSound where
  config words s hvalid _ := by
    unfold ParamsSound
    rw [applyConfig_params, applyConfig_strap]
    exact ⟨paramsOf_inRange words, configValid_iff.1 hvalid⟩
  stage i k w s h := paramsSound_dependsOn.keep (stageWord_only i k w s) h
  load _ _ s h := paramsSound_dependsOn.keep (loadOutcome_only _ _ s) h
  refresh s h := paramsSound_dependsOn.keep (handMarks_only _ s) h
  fetch _ _ _ s h := paramsSound_dependsOn.keep (deliverFetch_only _ _ _ s) h

theorem ParamsSound.starvation_le {s : State} (h : ParamsSound s) : s.params.starvation ≤ 255 := by
  obtain ⟨⟨-, -, -, -, -, -, -, -, -, -, -, -, -, -, hstarvation, -⟩, -⟩ := h
  exact hstarvation.2

/-- The defaults make a valid layout for every strap value. -/
theorem paramsSound_afterReset (straps : BitVec 4) (ack busy : Bool) (n : Nat) (queue : List Instr) :
    ParamsSound (State.afterReset straps ack busy n queue) := by
  have hstrap := straps.isLt
  have hbase : strapBase straps ≤ 15 * 0x400000 := Nat.mul_le_mul_right _ (by omega)
  refine ⟨by show ParamsInRange Params.reset; simp [ParamsInRange, Params.reset, Within], ?_⟩
  refine ⟨show (0 + 24 - 1 : Nat) ≤ 127 by decide, show (64 + 16 - 1 : Nat) ≤ 127 by decide,
    show (roleAddresses Params.reset).Nodup by decide, ?_⟩
  show strapBase straps + 0x4000 ≤ 1024 * 0x10000
  omega

/-! ## The write-back set -/

/-- The write-back set's form within an event, which the words noted may still await. -/
def WriteBackFits (s : State) : Prop :=
  (s.mem.writeBacks.map (·.offset)).Nodup ∧ (∀ e ∈ s.mem.writeBacks, e.offset ∈ writtenBack) ∧
    (∀ o, writeBackInFlight s = some o → s.mem.writeBacks.head?.map (·.offset) = some o) ∧ s.mem.counter ≤ 255

theorem writeBackSound_iff {s : State} : WriteBackSound s ↔ WriteBackFits s ∧ s.mem.noted = [] := by
  simp only [WriteBackSound, WriteBackFits, and_assoc]

theorem writeBackInFlight_of_not_own {s : State} (h : s.mem.port.own = false) : writeBackInFlight s = none := by
  unfold writeBackInFlight
  cases hp : s.mem.port <;> simp_all [Port.own]

theorem writeBackFits_dependsOn : DependsOn [.ownPort, .writeBacks, .counter] WriteBackFits := by
  intro s t hd hs
  obtain ⟨hnodup, hmem, hhead, hcount⟩ := hs
  have hport : t.mem.port = s.mem.port ∨ t.mem.port.own = false := hd .ownPort (by decide)
  have hset : t.mem.writeBacks = s.mem.writeBacks := hd .writeBacks (by decide)
  have hcounter : t.mem.counter = s.mem.counter := hd .counter (by decide)
  refine ⟨hset ▸ hnodup, hset ▸ hmem, fun o ho => ?_, hcounter ▸ hcount⟩
  obtain hport | hidle := hport
  · rw [hset]
    refine hhead o ?_
    rwa [writeBackInFlight, hport, ← writeBackInFlight] at ho
  · rw [writeBackInFlight_of_not_own hidle] at ho
    cases ho

theorem headFits_of_none {s : State} (h : writeBackInFlight s = none) :
    ∀ o, writeBackInFlight s = some o → s.mem.writeBacks.head?.map (·.offset) = some o := by
  intro o ho
  rw [h] at ho
  cases ho

/-- The marks of an event keep the set's form. -/
theorem WriteBackFits.settle {t : State} (s : State) (h : WriteBackFits t) : WriteBackFits (settle s t) := by
  obtain ⟨hnodup, hmem, hhead, hcount⟩ := h
  obtain ⟨os, hos, hset⟩ : ∃ os, (∀ o ∈ os, o ∈ writtenBack) ∧
      (Machine.settle s t).mem.writeBacks = (os.foldl MemPath.mark t.mem).writeBacks :=
    ⟨markedBy s (tendBusyTimer t), fun o ho => ((mem_markedBy s _ o).1 ho).1, rfl⟩
  refine ⟨?_, fun e he => ?_, fun o ho => ?_, hcount⟩
  · rw [hset]
    exact foldl_mark_nodup _ _ hnodup
  · have he' := List.mem_map_of_mem (f := (·.offset)) he
    rw [hset, mem_foldl_mark] at he'
    obtain he' | he' := he'
    · obtain ⟨e', hmem', heq⟩ := List.mem_map.1 he'
      exact heq ▸ hmem e' hmem'
    · exact hos _ he'
  · have hkeep : ∀ (os : List Nat) (m : MemPath), m.writeBacks.head?.map (·.offset) = some o →
        (os.foldl MemPath.mark m).writeBacks.head?.map (·.offset) = some o := by
      intro os
      induction os with
      | nil => exact fun _ h => h
      | cons o' rest ih => exact fun m h => ih _ (m.mark_head o' o h)
    rw [hset]
    exact hkeep os t.mem (hhead o ho)

/-- The write-back set after the write of its head holds the words that it held, or those but the head. -/
theorem afterWriteBack_perm (e : WbEntry) (rest : List WbEntry) :
    ((afterWriteBack (e :: rest)).map (·.offset)).Perm (e.offset :: rest.map (·.offset)) ∨ afterWriteBack (e :: rest) = rest := by
  cases h : e.changed
  · exact .inr (by simp [afterWriteBack, h])
  · exact .inl (by simp [afterWriteBack, h])

theorem WriteBackFits.finishWriteBack {s : State} (err : Bool) (h : WriteBackFits s) : WriteBackFits (finishWriteBack err s) := by
  have hfits : WriteBackFits
      (setMem { s.mem with port := .idle, writeBacks := afterWriteBack s.mem.writeBacks, counter := 0 } s) := by
    obtain ⟨hnodup, hmem, -, -⟩ := h
    refine ⟨?_, ?_, headFits_of_none rfl, Nat.zero_le _⟩ <;> simp only [setMem_mem]
    · cases hw : s.mem.writeBacks with
      | nil => exact List.nodup_nil
      | cons e rest =>
        rw [hw] at hnodup
        obtain hp | hr := afterWriteBack_perm e rest
        · exact hp.nodup_iff.2 hnodup
        · rw [hr]
          exact hnodup.of_cons
    · cases hw : s.mem.writeBacks with
      | nil => simp [afterWriteBack]
      | cons e rest =>
        rw [hw] at hmem
        intro x hx
        obtain hp | hr := afterWriteBack_perm e rest
        · have hx' : x.offset ∈ (e :: rest).map (·.offset) := hp.subset (List.mem_map_of_mem hx)
          obtain ⟨y, hy, hxy⟩ := List.mem_map.1 hx'
          exact hxy ▸ hmem y hy
        · exact hmem x (.tail _ (hr ▸ hx))
  unfold Machine.finishWriteBack
  split
  · simp only
    split
    · exact writeBackFits_dependsOn.keep (recordFault_only _ _ _ _) hfits
    · exact hfits
  · exact h

/-! ## The arbiter -/

theorem WriteBackFits.startOwn {s : State} (h : WriteBackFits s) : WriteBackFits (startOwn s) := by
  obtain ⟨hnodup, hmem, hhead, hcount⟩ := h
  unfold Machine.startOwn
  split
  · split
    · exact ⟨hnodup, hmem, headFits_of_none rfl, hcount⟩
    · exact ⟨hnodup, hmem, hhead, hcount⟩
  · split
    · rename_i e rest he
      refine ⟨hnodup, hmem, fun o ho => ?_, hcount⟩
      cases ho
      simp only [setMem_mem, he]
      rfl
    · exact ⟨hnodup, hmem, hhead, hcount⟩

/-- The counter rises only below the starvation limit. -/
theorem WriteBackFits.startCounted {s : State} (h : WriteBackFits s) (hlimit : s.params.starvation ≤ 255)
    (hs : starved s = false) : WriteBackFits (startCounted s) := by
  unfold Machine.startCounted
  refine writeBackFits_dependsOn.keep (startProcessor_only _) ?_
  split
  · rename_i hown
    have hbelow : s.mem.counter < s.params.starvation := by
      simpa [starved, hown] using hs
    obtain ⟨hnodup, hmem, hhead, -⟩ := h
    exact ⟨hnodup, hmem, hhead, by show s.mem.counter + 1 ≤ 255; omega⟩
  · exact h

theorem WriteBackFits.setMode {s : State} (m : MemMode) (h : WriteBackFits s) : WriteBackFits (setMode m s) :=
  writeBackFits_dependsOn.keep (setMode_only m s) h

theorem WriteBackFits.arbitrate {s : State} (h : WriteBackFits s) (hlimit : s.params.starvation ≤ 255) :
    WriteBackFits (arbitrate s) := by
  unfold Machine.arbitrate
  split
  · exact h.startOwn
  · exact writeBackFits_dependsOn.keep (startProcessor_only _) (h.setMode .normal)
  · split
    · exact (h.setMode .urgent).startOwn
    · rename_i hs
      exact h.startCounted hlimit (by simpa using hs)
  · exact h.startOwn
  · exact h

theorem WriteBackFits.arrive {s : State} (h : WriteBackFits s) (hlimit : s.params.starvation ≤ 255) (a : Access) :
    WriteBackFits (arrive a s) := by
  have hw : Only [.waiting, .answer] s (setMem { s.mem with waiting := some a, answer := none } s) := .of_overlay rfl
  have ht : WriteBackFits (setMem { s.mem with waiting := some a, answer := none } s) := writeBackFits_dependsOn.keep hw h
  unfold Machine.arrive
  split
  · exact writeBackFits_dependsOn.keep (dropWrite_only s) h
  simp only
  split
  · unfold startArrived
    split
    · split
      · exact ht
      · rename_i hs
        exact ht.startCounted hlimit (by simpa using hs)
    · split
      · exact ht
      · exact writeBackFits_dependsOn.keep (startProcessor_only _) (ht.setMode .normal)
  · exact ht

theorem WriteBackFits.finishOwnRead {s : State} (h : WriteBackFits s) (data : Word) (err : Bool) :
    WriteBackFits (finishOwnRead data err s) := by
  unfold Machine.finishOwnRead
  split
  · obtain ⟨hnodup, hmem, -, -⟩ := h
    have ht : WriteBackFits (setMem { s.mem with port := .idle, reads := s.mem.reads.tail, counter := 0 } s) :=
      ⟨hnodup, hmem, headFits_of_none rfl, Nat.zero_le _⟩
    exact writeBackFits_dependsOn.keep
      ((Only.ite (recordFault_only _ _ _ _) (.refl _ _)).trans (deliver_only _ data err _)) ht
  · exact h

/-! ## The step -/

/-- What O54 states of a state within an event. -/
def PathSound (s : State) : Prop := ParamsSound s ∧ WriteBackFits s

theorem pathSound_dependsOn : DependsOn [.params, .strap, .ownPort, .writeBacks, .counter] PathSound := fun s t hd hs =>
  ⟨paramsSound_dependsOn s t (fun d hmem => hd d (by revert hmem; simp; tauto)) hs.1,
    writeBackFits_dependsOn s t (fun d hmem => hd d (by revert hmem; simp; tauto)) hs.2⟩

theorem effect_keeps_path {c : Instr} {s : State} (hc : concerns [.params, .strap, .ownPort, .writeBacks, .counter] c = true)
    (hs : PathSound s) : PathSound (effect c s) := by
  obtain ⟨hparams, hfits⟩ := hs
  have hlimit : s.params.starvation ≤ 255 := hparams.starvation_le
  have only {fs : List Leaf} {t : State} (h : Only fs s t)
      (hfs : [Leaf.params, .strap].all (fun d => !fs.contains d) = true := by rfl) : ParamsSound t :=
    paramsSound_dependsOn.keep h hparams hfs
  cases c
  case processorAccessArrives addr write data lanes => exact ⟨only (effect_only (.processorAccessArrives ..) s), hfits.arrive hlimit _⟩
  case arbiterStart => exact ⟨only (arbitrate_only s), hfits.arbitrate hlimit⟩
  case starvationLimitReached => exact ⟨only (effect_only .starvationLimitReached s), (hfits.setMode .urgent).startOwn⟩
  case ownReadComplete data err =>
    exact ⟨finishOwnRead_keeps paramsSound_dependsOn paramsSound_keepsAnswers rfl data err hparams, hfits.finishOwnRead data err⟩
  case writeBackComplete err => exact ⟨only (finishWriteBack_only err s), hfits.finishWriteBack err⟩
  all_goals exact (Bool.false_ne_true hc).elim

theorem writeBackFits_afterReset (straps : BitVec 4) (ack busy : Bool) (n : Nat) (queue : List Instr) :
    WriteBackFits (State.afterReset straps ack busy n queue) := by
  have hmap : MemPath.reset.writeBacks.map (·.offset) = writtenBack := by
    simp [MemPath.reset, Function.comp_def]
  refine ⟨?_, fun e he => ?_, headFits_of_none rfl, Nat.zero_le _⟩
  · show (MemPath.reset.writeBacks.map (·.offset)).Nodup
    rw [hmap]
    decide +kernel
  · have he' := List.mem_map_of_mem (f := (·.offset)) he
    exact hmap ▸ he'

theorem step_keeps_path {s t : State} (h : step s = .next t) (hs : PathSound s) : PathSound t :=
  step_keeps pathSound_dependsOn rfl
    (fun straps ack busy n queue => ⟨paramsSound_afterReset straps ack busy n queue, writeBackFits_afterReset straps ack busy n queue⟩)
    (fun s _ hs => pathSound_dependsOn.keep (release_only s) hs)
    (fun s t _ ht => ⟨paramsSound_dependsOn.keep (settle_only s t) ht.1, ht.2.settle s⟩)
    (fun _ _ _ hc _ hs => effect_keeps_path hc hs) h hs

/-- The end of an event takes the words noted off the list again. -/
theorem step_noted {s t : State} (h : step s = .next t) (hs : s.mem.noted = []) : t.mem.noted = [] := by
  unfold step at h
  split at h
  · cases h
    exact hs
  · rename_i c rest _
    obtain ⟨t', he, hcases⟩ := exec_cases c { s with pending := rest }
    rw [he] at h
    cases h
    obtain rfl | ⟨straps, -, rfl⟩ | ⟨-, -, rfl⟩ | ⟨-, ⟨level, rfl⟩ | ⟨level, rfl⟩⟩ | ⟨-, -, -, rfl⟩ := hcases
    · exact hs
    · rfl
    · exact hs
    · exact hs
    · exact hs
    · exact hs

/-- Settles O54: only a configuration reading changes the parameters, to clamped and valid ones; the write-back set changes by marks
and by the completion of its head, the counter below the starvation limit. -/
theorem stepKeepsParamsAndWriteBackSound : Obligations.StepKeepsParamsAndWriteBackSound := by
  intro s t hparams hwrites h
  obtain ⟨hfits, hnoted⟩ := writeBackSound_iff.1 hwrites
  obtain ⟨hparams', hfits'⟩ := step_keeps_path h ⟨hparams, hfits⟩
  exact ⟨hparams', writeBackSound_iff.2 ⟨hfits', step_noted h hnoted⟩⟩

end Sys2Proof.Machine
end

section
/-! PROOFS. One own-read request for each requester that waits (section 1.4): what the requesters of source LOAD and FETCH ask for
when they are answered. -/

namespace Sys2Proof.Machine

set_option Elab.async false

/-! ## The requester of source LOAD -/

/-- From `s` to `t` the requester of source LOAD has asked for the word that it now waits for, or waits for none. -/
def LoadAsks (s t : State) : Prop :=
  readingFits t = true ∧
    (t.part.reading = .idle ∧ t.mem.reads = s.mem.reads ∨
      t.part.reading ≠ .idle ∧ ∃ a, t.mem.reads = s.mem.reads ++ [{ addr := a, source := .load }])

theorem readingFits_congr {s t : State} (hpin : t.resetPin = s.resetPin) (hstate : t.part.state = s.part.state)
    (hreading : t.part.reading = s.part.reading) : readingFits t = readingFits s := by
  unfold readingFits
  rw [hpin, hstate, hreading]

/-- What the requester asks for depends on nothing but its requests, its progress, the part state and the pin. -/
theorem LoadAsks.congr {s s' t t' : State} (h : LoadAsks s t) (hreads : s'.mem.reads = s.mem.reads)
    {fs : List Leaf} (ho : Only fs t t')
    (hfs : [Leaf.resetPin, .partState, .reading, .reads].all (fun d => !fs.contains d) = true := by rfl) : LoadAsks s' t' := by
  have hsame : ∀ d ∈ [Leaf.resetPin, .partState, .reading, .reads], Same d t t' := fun d hd =>
    ho.same d (by simpa using List.all_eq_true.1 hfs d hd)
  have hpin : t'.resetPin = t.resetPin := hsame .resetPin (by decide)
  have hstate : t'.part.state = t.part.state := hsame .partState (by decide)
  have hreading : t'.part.reading = t.part.reading := hsame .reading (by decide)
  have hreads' : t'.mem.reads = t.mem.reads := hsame .reads (by decide)
  unfold LoadAsks
  rw [readingFits_congr hpin hstate hreading, hreading, hreads', hreads]
  exact h

theorem LoadAsks.of_reads {s s' t : State} (h : LoadAsks s t) (hreads : s.mem.reads = s'.mem.reads) : LoadAsks s' t := by
  unfold LoadAsks
  rw [← hreads]
  exact h

theorem beginReading_asks {s : State} (hpin : s.resetPin = false) : LoadAsks s (beginReading s) :=
  ⟨by simp [readingFits, beginReading, requestLoad, setPart, hpin], .inr ⟨by simp [beginReading, requestLoad], _, rfl⟩⟩

theorem halt_asks {s : State} (hpin : s.resetPin = false) : LoadAsks s (halt s) :=
  ⟨by simp [readingFits, halt, pend, setPart, hpin], .inl ⟨rfl, rfl⟩⟩

theorem readTable_asks {s : State} {i k : Nat} (hpin : s.resetPin = false) (hstate : s.part.state = .loading) (hi : i < 96)
    (hk : k < 6) : LoadAsks s (readTable i k s) :=
  ⟨by simp [readingFits, readTable, requestLoad, setPart, hpin, hstate, hi, hk],
    .inr ⟨by simp [readTable, requestLoad], _, rfl⟩⟩

theorem loadDone_asks {s : State} (hpin : s.resetPin = false) : LoadAsks s (loadDone s) := by
  have h : LoadAsks s (pend .loadDone (setPart .running .idle s)) :=
    ⟨by simp [readingFits, pend, setPart, hpin], .inl ⟨rfl, rfl⟩⟩
  exact h.congr rfl ((handMarks_only _ _).trans (complete_only _ _ _ _))

theorem nextSlot_asks {s : State} {i : Nat} (hpin : s.resetPin = false) (hstate : s.part.state = .loading) :
    LoadAsks s (nextSlot i s) := by
  unfold nextSlot
  split
  · rename_i hi
    exact readTable_asks hpin hstate hi (by decide)
  · exact loadDone_asks hpin

theorem judge_asks {s : State} (words : List Word) (hpin : s.resetPin = false) : LoadAsks s (judge words s) := by
  unfold judge
  simp only
  split
  · have ht := (setClamped_only (configClamped words) s).trans (applyConfig_only words _)
    have hpin' : (applyConfig words (setClamped (configClamped words) s)).resetPin = false := Eq.trans (ht.same .resetPin) hpin
    have hload : LoadAsks (pend .started (setPart .loading .idle (applyConfig words (setClamped (configClamped words) s))))
        (beginLoad (applyConfig words (setClamped (configClamped words) s))) :=
      readTable_asks hpin' rfl (by decide) (by decide)
    exact hload.of_reads (ht.same .reads)
  · exact (halt_asks (s := setClamped (configClamped words) s) hpin).congr rfl (complete_only _ _ _ _)

theorem configAnswer_asks {s : State} (answers : List Word) (addr : Nat) (data : Word) (err : Bool)
    (hpin : s.resetPin = false) (hstate : s.part.state = .starting) : LoadAsks s (configAnswer answers addr data err s) := by
  unfold configAnswer
  split
  · exact (halt_asks hpin).congr rfl (complete_only _ _ _ _)
  split
  · rename_i hlt
    refine ⟨?_, .inr ⟨by simp [requestLoad], _, rfl⟩⟩
    simp [readingFits, requestLoad, setPart, hpin, hstate]
    omega
  · exact judge_asks _ hpin

theorem tableAnswer_asks {s : State} {i k : Nat} (data : Word) (err : Bool) (hpin : s.resetPin = false)
    (hstate : s.part.state = .loading) (hi : i < 96) : LoadAsks s (tableAnswer i k data err s) := by
  unfold tableAnswer
  split
  · have hl := loadOutcome_only i true s
    exact (nextSlot_asks (s := loadOutcome i true s) (Eq.trans (hl.same .resetPin) hpin)
      (Eq.trans (hl.same .partState) hstate)).of_reads (hl.same .reads)
  split
  · rename_i hk
    exact (readTable_asks (s := stageWord i k data s) hpin hstate hi (by omega)).of_reads rfl
  · have hl := (stageWord_only i k data s).trans (loadOutcome_only i false _)
    exact (nextSlot_asks (s := loadOutcome i false (stageWord i k data s)) (Eq.trans (hl.same .resetPin) hpin)
      (Eq.trans (hl.same .partState) hstate)).of_reads (hl.same .reads)

/-- An answer carries the reading on, or ends it. -/
theorem deliverLoad_asks {s : State} (addr : Nat) (data : Word) (err : Bool) (hfits : readingFits s = true)
    (hreading : s.part.reading ≠ .idle) : LoadAsks s (deliverLoad addr data err s) := by
  unfold readingFits at hfits
  unfold deliverLoad
  split at hfits
  · rename_i answers hstate hr
    rw [hr]
    simp only [Bool.and_eq_true, Bool.not_eq_true'] at hfits
    exact configAnswer_asks answers addr data err hfits.1 hstate
  · exact absurd ‹_› hreading
  · rename_i i k hstate hr
    rw [hr]
    simp only [Bool.and_eq_true, Bool.not_eq_true', decide_eq_true_eq] at hfits
    exact tableAnswer_asks data err hfits.1.1 hstate hfits.1.2
  · exact absurd ‹_› hreading
  · exact absurd ‹_› hreading
  · cases hfits

/-! ## The requester of source FETCH -/

/-- The Notice Unit waits for an answer. -/
def fetchWaits (s : State) : Bool := s.notices.fetch.isSome || s.notices.orphan

/-- A fetch in progress has its request at the head, and none goes on while the read of an abandoned one is to be answered. -/
def FetchFits (s : State) : Prop :=
  (s.notices.fetch.isSome && s.notices.orphan) = false ∧ (s.notices.fetch.isSome = true → s.notices.queue ≠ [])

/-- From `s` to `t` the Notice Unit has asked for the word that it now waits for, or waits for none. -/
def FetchAsks (s t : State) : Prop :=
  FetchFits t ∧
    (fetchWaits t = false ∧ t.mem.reads = s.mem.reads ∨
      fetchWaits t = true ∧ ∃ a, t.mem.reads = s.mem.reads ++ [{ addr := a, source := .fetch }])

/-- What the unit asks for depends on nothing but its requests, its fetch and its queue. -/
theorem FetchAsks.congr {s s' t t' : State} (h : FetchAsks s t) (hreads : s'.mem.reads = s.mem.reads)
    {fs : List Leaf} (ho : Only fs t t')
    (hfs : [Leaf.fetch, .orphan, .requests, .reads].all (fun d => !fs.contains d) = true := by rfl) : FetchAsks s' t' := by
  have hsame : ∀ d ∈ [Leaf.fetch, .orphan, .requests, .reads], Same d t t' := fun d hd =>
    ho.same d (by simpa using List.all_eq_true.1 hfs d hd)
  have hfetch : t'.notices.fetch = t.notices.fetch := hsame .fetch (by decide)
  have horphan : t'.notices.orphan = t.notices.orphan := hsame .orphan (by decide)
  have hqueue : t'.notices.queue = t.notices.queue := hsame .requests (by decide)
  have hreads' : t'.mem.reads = t.mem.reads := hsame .reads (by decide)
  unfold FetchAsks FetchFits fetchWaits
  rw [hfetch, horphan, hqueue, hreads', hreads]
  exact h

theorem FetchAsks.of_reads {s s' t : State} (h : FetchAsks s t) (hreads : s.mem.reads = s'.mem.reads) : FetchAsks s' t := by
  unfold FetchAsks
  rw [← hreads]
  exact h

theorem fetchAsks_idle {s : State} (hf : s.notices.fetch = none) (ho : s.notices.orphan = false) : FetchAsks s s :=
  ⟨⟨by simp [hf], by simp [hf]⟩, .inl ⟨by simp [fetchWaits, hf, ho], rfl⟩⟩

/-- A fetch goes on with a read requested. -/
theorem requestFetch_asks {s : State} (addr : Nat) (hf : s.notices.fetch.isSome = true) (ho : s.notices.orphan = false)
    (hq : s.notices.queue ≠ []) : FetchAsks s (requestFetch addr s) :=
  ⟨⟨by simp [requestFetch, ho], fun _ => hq⟩, .inr ⟨by simp [fetchWaits, requestFetch, hf], _, rfl⟩⟩

theorem finishFetch_fetch (e : FetchEnd) {s : State} (hq : s.notices.queue ≠ []) : (finishFetch e s).notices.fetch = none := by
  obtain ⟨r, rest, h⟩ := List.exists_cons_of_ne_nil hq
  exact (finishFetch_ended e h).same .fetch

theorem finishFetch_orphan (e : FetchEnd) (s : State) : (finishFetch e s).notices.orphan = s.notices.orphan :=
  (finishFetch_only e s).same .orphan

theorem finishFetch_reads (e : FetchEnd) (s : State) : (finishFetch e s).mem.reads = s.mem.reads :=
  (finishFetch_only e s).same .reads

/-- On an idle unit the requests at the head end or begin. -/
theorem beginFetches_asks (n : Nat) {s : State} (hf : s.notices.fetch = none) (ho : s.notices.orphan = false) :
    FetchAsks s (beginFetches n s) := by
  induction n generalizing s with
  | zero => exact fetchAsks_idle hf ho
  | succ n ih =>
    unfold beginFetches
    split
    · exact fetchAsks_idle hf ho
    · rename_i r rest hqueue
      rw [if_neg (by simp [hf, ho])]
      dsimp only
      have hq : s.notices.queue ≠ [] := by simp [hqueue]
      split
      · have hend : ∀ (e : FetchEnd) (t : State), t.mem.reads = s.mem.reads → t.notices.orphan = false →
            t.notices.queue ≠ [] → FetchAsks s (beginFetches n (finishFetch e t)) := fun e t hreads ho hq =>
          (ih (finishFetch_fetch e hq) ((finishFetch_orphan e t).trans ho)).of_reads ((finishFetch_reads e t).trans hreads)
        exact hend _ _ rfl ho hq
      · exact (requestFetch_asks r.chain (s := { s with notices := { s.notices with fetch := some (Fetch.begin r.chain) } })
          rfl ho hq).of_reads rfl

/-- On a unit that waits nothing begins. -/
theorem beginFetches_of_waits (n : Nat) {s : State} (h : fetchWaits s = true) : beginFetches n s = s := by
  cases n with
  | zero => rfl
  | succ n =>
    have h' : (s.notices.fetch.isSome || s.notices.orphan) = true := h
    unfold beginFetches
    split
    · rfl
    · exact if_pos h'

theorem endFetch_asks (e : FetchEnd) {s : State} (ho : s.notices.orphan = false) (hq : s.notices.queue ≠ []) :
    FetchAsks s (endFetch e s) :=
  (beginFetches_asks _ (finishFetch_fetch e hq) ((finishFetch_orphan e s).trans ho)).of_reads
    (finishFetch_reads e s)

section

variable {s : State} (ho : s.notices.orphan = false) (hq : s.notices.queue ≠ [])

include ho hq

theorem continueFetch_asks (f : Fetch) : FetchAsks s (continueFetch f s) := by
  unfold continueFetch
  simp only
  split
  · exact (endFetch_asks _ (s := { s with notices := { s.notices with fetch := some f } }) ho hq).of_reads rfl
  · exact (requestFetch_asks f.addr (s := { s with notices := { s.notices with fetch := some f } }) rfl ho hq).of_reads rfl

theorem endFragment_asks (f : Fetch) : FetchAsks s (endFragment f s) := by
  have h (e : FetchEnd) : FetchAsks s (endFetch e { s with notices := { s.notices with fetch := some f } }) :=
    (endFetch_asks e (s := { s with notices := { s.notices with fetch := some f } }) ho hq).of_reads rfl
  unfold endFragment
  simp only
  split
  · exact h _
  split
  · exact h _
  split
  · exact h _
  split
  · exact h _
  split
  · exact h _
  · exact continueFetch_asks ho hq _

theorem fetchAnswer_asks (w : Word) (f : Fetch) : FetchAsks s (fetchAnswer w f s) := by
  unfold fetchAnswer
  split
  · exact continueFetch_asks ho hq _
  · exact continueFetch_asks ho hq _
  · unfold beginFragment
    simp only
    split
    · exact endFragment_asks ho hq _
    · exact continueFetch_asks ho hq _
  · unfold takeText
    simp only
    split
    · exact endFragment_asks ho hq _
    · exact continueFetch_asks ho hq _

end

/-- An answer carries the fetch on, or ends it; that of an abandoned read lets the next request begin. -/
theorem deliverFetch_asks {s : State} (addr : Nat) (data : Word) (err : Bool) (h : FetchFits s) :
    FetchAsks s (deliverFetch addr data err s) := by
  obtain ⟨hexcl, hqueue⟩ := h
  unfold deliverFetch
  split
  · rename_i ho
    have hf : s.notices.fetch = none := by simpa [ho] using hexcl
    exact (beginFetches_asks _ (s := { s with notices := { s.notices with orphan := false } }) hf rfl).of_reads rfl
  · rename_i ho
    have ho' : s.notices.orphan = false := by simpa using ho
    split
    · rename_i hf
      exact fetchAsks_idle hf ho'
    · rename_i f hf
      have hq := hqueue (by simp [hf])
      split
      · exact endFetch_asks _ ho' hq
      · exact fetchAnswer_asks ho' hq data f

/-! ## Requests by their source -/

theorem requestsOf_append (src : ReadSource) {s t : State} (l : List ReadReq) (h : t.mem.reads = s.mem.reads ++ l) :
    requestsOf src t = requestsOf src s + l.countP fun r => decide (r.source = src) := by
  simp [requestsOf, h]

/-- A request at the tail leaves the head where it is. -/
theorem head?_append {reads l : List ReadReq} {r : ReadReq} (h : reads.head? = some r) : (reads ++ l).head? = some r := by
  rw [List.head?_append, h]
  rfl

/-- The invariant of the own-read requests, unit by unit. -/
theorem requestsSound_iff {s : State} :
    RequestsSound s ↔ readingFits s = true ∧ FetchFits s ∧ requestsOf .load s = (if s.part.reading = .idle then 0 else 1) ∧
      requestsOf .fetch s = (if fetchWaits s = true then 1 else 0) ∧ ∀ r, readInFlight s = some r → s.mem.reads.head? = some r := by
  unfold RequestsSound FetchFits fetchWaits
  tauto

theorem readInFlight_of_not_own {s : State} (h : s.mem.port.own = false) : readInFlight s = none := by
  unfold readInFlight
  cases hp : s.mem.port <;> simp_all [Port.own]

theorem requestsSound_dependsOn :
    DependsOn [.resetPin, .partState, .reading, .reads, .ownPort, .fetch, .orphan, .requests] RequestsSound := by
  intro s t hd hs
  have hpin : t.resetPin = s.resetPin := hd .resetPin (by decide)
  have hstate : t.part.state = s.part.state := hd .partState (by decide)
  have hreading : t.part.reading = s.part.reading := hd .reading (by decide)
  have hreads : t.mem.reads = s.mem.reads := hd .reads (by decide)
  have hport : t.mem.port = s.mem.port ∨ t.mem.port.own = false := hd .ownPort (by decide)
  have hfetch : t.notices.fetch = s.notices.fetch := hd .fetch (by decide)
  have horphan : t.notices.orphan = s.notices.orphan := hd .orphan (by decide)
  have hqueue : t.notices.queue = s.notices.queue := hd .requests (by decide)
  obtain ⟨hfits, hexcl, hload, hwait, hhead, hq⟩ := hs
  unfold RequestsSound requestsOf
  rw [readingFits_congr hpin hstate hreading, hfetch, horphan, hreads, hreading, hqueue]
  refine ⟨hfits, hexcl, hload, hwait, fun r hr => hhead r ?_, hq⟩
  obtain hport | hidle := hport
  · rwa [readInFlight, hport, ← readInFlight] at hr
  · rw [readInFlight_of_not_own hidle] at hr
    cases hr

/-! ## The commands that ask for a word -/

theorem RequestsSound.startOwn {s : State} (h : RequestsSound s) : RequestsSound (startOwn s) := by
  obtain ⟨hfits, hexcl, hload, hwait, hhead, hq⟩ := h
  unfold Machine.startOwn
  split
  · split
    · rename_i r rest hreads
      refine ⟨hfits, hexcl, hload, hwait, fun r' hr => ?_, hq⟩
      cases hr
      simp [hreads]
    · exact ⟨hfits, hexcl, hload, hwait, hhead, hq⟩
  · split
    · exact ⟨hfits, hexcl, hload, hwait, fun r hr => by simp [readInFlight] at hr, hq⟩
    · exact ⟨hfits, hexcl, hload, hwait, hhead, hq⟩

theorem RequestsSound.setMode {s : State} (m : MemMode) (h : RequestsSound s) : RequestsSound (setMode m s) :=
  requestsSound_dependsOn.keep (setMode_only m s) h

theorem RequestsSound.arbitrate {s : State} (h : RequestsSound s) : RequestsSound (arbitrate s) := by
  unfold Machine.arbitrate
  split
  · exact h.startOwn
  · exact requestsSound_dependsOn.keep (startProcessor_only _) (h.setMode .normal)
  · split
    · exact (h.setMode .urgent).startOwn
    · exact requestsSound_dependsOn.keep (startCounted_only s) h
  · exact h.startOwn
  · exact h

/-- What the requester of source LOAD asks for leaves the invariant, where it waited for nothing and the rest stays. -/
theorem RequestsSound.of_loadAsks {s t : State} (h : LoadAsks s t) (hload : requestsOf .load s = 0) (hfetch : FetchFits t)
    (hwaits : requestsOf .fetch s = if fetchWaits t = true then 1 else 0)
    (hhead : ∀ r, readInFlight t = some r → s.mem.reads.head? = some r) : RequestsSound t := by
  obtain ⟨hfits, ⟨hidle, hreads⟩ | ⟨hreading, a, hreads⟩⟩ := h
  · refine requestsSound_iff.2 ⟨hfits, hfetch, ?_, ?_, fun r hr => hreads ▸ hhead r hr⟩
    · rw [if_pos hidle, ← hload, requestsOf, hreads, ← requestsOf]
    · rw [← hwaits, requestsOf, hreads, ← requestsOf]
  · refine requestsSound_iff.2 ⟨hfits, hfetch, ?_, ?_, fun r hr => hreads ▸ head?_append (hhead r hr)⟩
    · rw [requestsOf_append .load _ hreads, hload, if_neg hreading]
      simp
    · rw [requestsOf_append .fetch _ hreads, hwaits]
      simp

/-- The same for the Notice Unit. -/
theorem RequestsSound.of_fetchAsks {s t : State} (h : FetchAsks s t) (hfetch : requestsOf .fetch s = 0)
    (hfits : readingFits t = true) (hload : requestsOf .load s = if t.part.reading = .idle then 0 else 1)
    (hhead : ∀ r, readInFlight t = some r → s.mem.reads.head? = some r) : RequestsSound t := by
  obtain ⟨hfetch', ⟨hidle, hreads⟩ | ⟨hwaits, a, hreads⟩⟩ := h
  · refine requestsSound_iff.2 ⟨hfits, hfetch', ?_, ?_, fun r hr => hreads ▸ hhead r hr⟩
    · rw [← hload, requestsOf, hreads, ← requestsOf]
    · rw [hidle, requestsOf, hreads, ← requestsOf, hfetch]
      rfl
  · refine requestsSound_iff.2 ⟨hfits, hfetch', ?_, ?_, fun r hr => hreads ▸ head?_append (hhead r hr)⟩
    · rw [requestsOf_append .load _ hreads, hload]
      simp
    · rw [requestsOf_append .fetch _ hreads, hfetch, if_pos hwaits]
      simp

/-- An answer of an own read takes its request from the head, and its requester asks anew. -/
theorem RequestsSound.finishOwnRead {s : State} (h : RequestsSound s) (data : Word) (err : Bool) :
    RequestsSound (finishOwnRead data err s) := by
  obtain ⟨hfits, hfetch, hload, hwait, hhead⟩ := requestsSound_iff.1 h
  unfold Machine.finishOwnRead
  split
  · rename_i r hr
    obtain ⟨rest, hreads⟩ : ∃ rest, s.mem.reads = r :: rest := by
      have := hhead r hr
      cases hreads : s.mem.reads with
      | nil => simp [hreads] at this
      | cons r' rest => exact ⟨rest, by simpa [hreads] using this⟩
    obtain ⟨u, hu⟩ : ∃ u, u = (if err = true then recordFault r.addr false r.source.fault
        (setMem { s.mem with port := .idle, reads := s.mem.reads.tail, counter := 0 } s)
        else setMem { s.mem with port := .idle, reads := s.mem.reads.tail, counter := 0 } s) := ⟨_, rfl⟩
    have hframe : Only [.port, .reads, .counter, .fault, .att] s u := by
      have hread : Only [.port, .reads, .counter] s
          (setMem { s.mem with port := .idle, reads := s.mem.reads.tail, counter := 0 } s) :=
        .of_overlay rfl (ownPort := .inr (.inr rfl))
      rw [hu]
      exact hread.trans (.ite (recordFault_only _ _ _ _) (.refl _ _))
    have hreads' : u.mem.reads = rest := by
      rw [hu]
      split <;> simp [recordFault, hreads]
    have hidle : u.mem.port = .idle := by
      rw [hu]
      split <;> simp [recordFault]
    have hfits' : readingFits u = true :=
      (readingFits_congr (hframe.same .resetPin) (hframe.same .partState) (hframe.same .reading)).trans hfits
    have hreading : u.part.reading = s.part.reading := hframe.same .reading
    have hnotices : u.notices = s.notices := by
      rw [hu]
      split <;> rfl
    have hfetch' : FetchFits u := by
      unfold FetchFits
      rwa [hnotices]
    have hcount : ∀ src, requestsOf src s = requestsOf src u + if r.source = src then 1 else 0 := by
      intro src
      simp only [requestsOf, hreads, hreads', List.countP_cons, decide_eq_true_eq]
    simp only
    rw [← hu]
    unfold deliver
    have hport : ∀ {fs : List Leaf} {t : State}, Only fs u t → fs.contains .port = false → ∀ r', readInFlight t = some r' →
        u.mem.reads.head? = some r' := by
      intro fs t ho hc r' hr'
      have hp : t.mem.port = .idle := Eq.trans (ho.same .port hc) hidle
      simp [readInFlight, hp] at hr'
    split
    · rename_i hsrc
      have hone := hcount .load
      rw [hload, if_pos hsrc] at hone
      have hne : u.part.reading ≠ .idle := by
        intro hi
        rw [hreading] at hi
        simp [hi] at hone
      have hzero : requestsOf .load u = 0 := by
        rw [hreading] at hne
        simp only [hne, if_false] at hone
        omega
      have hdeliver := deliverLoad_only r.addr data err u
      have hn : (deliverLoad r.addr data err u).notices.fetch = u.notices.fetch := hdeliver.same .fetch
      have hn' : (deliverLoad r.addr data err u).notices.orphan = u.notices.orphan := hdeliver.same .orphan
      have hn'' : (deliverLoad r.addr data err u).notices.queue = u.notices.queue := hdeliver.same .requests
      refine .of_loadAsks (deliverLoad_asks _ data err hfits' hne) hzero ?_ ?_ (hport hdeliver rfl)
      · unfold FetchFits
        rwa [hn, hn', hn'']
      · have := hcount .fetch
        rw [hsrc] at this
        simp only [reduceCtorEq, if_false, Nat.add_zero] at this
        rw [← this, hwait]
        unfold fetchWaits
        rw [hn, hn', hnotices]
    · rename_i hsrc
      have hone := hcount .fetch
      rw [hwait, if_pos hsrc] at hone
      have hzero : requestsOf .fetch u = 0 := by
        split at hone <;> omega
      have hdeliver := deliverFetch_only r.addr data err u
      refine .of_fetchAsks (deliverFetch_asks _ data err hfetch') hzero ?_ ?_ (hport hdeliver rfl)
      · exact (readingFits_congr (hdeliver.same .resetPin) (hdeliver.same .partState) (hdeliver.same .reading)).trans hfits'
      · have := hcount .load
        rw [hsrc] at this
        simp only [reduceCtorEq, if_false, Nat.add_zero] at this
        rw [← this, hload, (hdeliver.same .reading : _ = _), hreading]
  · exact h

/-- A configuration reading begins where the requester waits for nothing. -/
theorem RequestsSound.beginReading {s : State} (h : RequestsSound s) (hidle : s.part.reading = .idle) {p : Bool}
    (hp : p = false) : RequestsSound (beginReading { s with resetPin := p }) := by
  obtain ⟨-, hfetch, hload, hwait, hhead⟩ := requestsSound_iff.1 h
  exact .of_loadAsks (beginReading_asks (s := { s with resetPin := p }) hp) (hload.trans (if_pos hidle)) hfetch hwait hhead

theorem reading_idle_of_asserted {s : State} (h : readingFits s = true) (hpin : s.resetPin = true) : s.part.reading = .idle := by
  unfold readingFits at h
  split at h <;> simp_all

theorem reading_idle_of_reloadable {s : State} (h : readingFits s = true) (hstate : whenReloadable s.part.state = true) :
    s.part.reading = .idle := by
  unfold readingFits at h
  split at h <;> simp_all [whenReloadable]

/-- Waiting requests begin on an idle unit only. -/
theorem RequestsSound.beginFetches {s : State} (h : RequestsSound s) (n : Nat) : RequestsSound (beginFetches n s) := by
  cases hw : fetchWaits s with
  | true => rwa [beginFetches_of_waits _ hw]
  | false =>
    obtain ⟨hfits, -, hload, hwait, hhead⟩ := requestsSound_iff.1 h
    have hwaits : s.notices.fetch.isSome = false ∧ s.notices.orphan = false := by
      simpa [fetchWaits] using hw
    have hbegin := beginFetches_only n s
    refine .of_fetchAsks (beginFetches_asks n (by simpa using hwaits.1) hwaits.2) (by simpa [hw] using hwait) ?_ ?_ ?_
    · exact (readingFits_congr (hbegin.same .resetPin) (hbegin.same .partState) (hbegin.same .reading)).trans hfits
    · rw [hload, (hbegin.same .reading : _ = _)]
    · intro r' hr'
      rw [readInFlight, (hbegin.same .port : _ = _), ← readInFlight] at hr'
      exact hhead r' hr'

theorem RequestsSound.queueFetch {s : State} (h : RequestsSound s) (i : Nat) (p : Post) : RequestsSound (queueFetch i p s) := by
  obtain ⟨hfits, ⟨hexcl, -⟩, hload, hwait, hhead⟩ := requestsSound_iff.1 h
  have hjoined (r : FetchReq) :
      RequestsSound { s with notices := { s.notices with queue := s.notices.queue ++ [r] } } :=
    requestsSound_iff.2 ⟨hfits, ⟨hexcl, fun _ => List.append_ne_nil_of_right_ne_nil _ (List.cons_ne_nil r [])⟩, hload, hwait, hhead⟩
  exact (hjoined _).beginFetches _

theorem RequestsSound.complete {s : State} (h : RequestsSound s) (p : Primary) (q : Secondary) (results : List Word) :
    RequestsSound (complete p q results s) := requestsSound_dependsOn.keep (complete_only p q results s) h

theorem RequestsSound.postNotice {s : State} (h : RequestsSound s) (words : List Word) :
    RequestsSound (postNotice words s) := by
  have hq : ∀ (i : Nat) (p : Post) (f : Entry → Entry), RequestsSound (Machine.queueFetch i p (changeEntry i f s)) :=
    fun i p f => RequestsSound.queueFetch (requestsSound_dependsOn.keep (changeEntry_only i f s) h) i p
  unfold Machine.postNotice
  dsimp only
  split
  · exact h.complete _ _ _
  split
  · exact (hq _ _ _).complete _ _ _
  split
  · exact (hq _ _ _).complete _ _ _
  · exact h.complete _ _ _

/-- A withdrawal leaves the request at the head to its fetch, or the fetch's read to be answered. -/
theorem RequestsSound.dropFetch {s : State} (h : RequestsSound s) (i : Nat) : RequestsSound (dropFetch i s) := by
  obtain ⟨hfits, ⟨hexcl, hqueue⟩, hload, hwait, hhead⟩ := requestsSound_iff.1 h
  unfold Machine.dropFetch
  dsimp only
  split
  · rename_i hd
    have hsome : s.notices.fetch.isSome = true := by
      unfold withdrawnFetch at hd
      split at hd
      · cases hd
      · split at hd
        · rename_i hboth
          exact hboth.2
        · split at hd <;> cases hd
    refine requestsSound_iff.2 ⟨hfits, ⟨rfl, fun h => by simp at h⟩, hload, ?_, hhead⟩
    rw [if_pos (by simp [fetchWaits])]
    rwa [if_pos (by simp [fetchWaits, hsome])] at hwait
  · rename_i hd
    refine requestsSound_iff.2 ⟨hfits, ⟨hexcl, fun hsome => ?_⟩, hload, hwait, hhead⟩
    obtain ⟨r, rest, hcons⟩ := List.exists_cons_of_ne_nil (hqueue hsome)
    have hne : r.entry ≠ i := by
      intro he
      apply hd
      simp only [withdrawnFetch, hcons]
      exact if_pos ⟨he, hsome⟩
    simp [hcons, hne]

theorem RequestsSound.withdrawNotice {s : State} (h : RequestsSound s) (words : List Word) :
    RequestsSound (withdrawNotice words s) := by
  unfold Machine.withdrawNotice
  split
  · exact h.complete _ _ _
  · rename_i i _
    exact (requestsSound_dependsOn.keep ((modEntry_only i (Entry.emptied .withdrawn) _).trans (rotateIfGone_only _))
      (h.dropFetch i)).complete _ _ _

/-! ## The step -/

/-- Up to the answer of its trigger write, a RELOAD begins the configuration reading, or none is taken. -/
theorem RequestsSound.reload {s : State} (h : RequestsSound s) (hpin : s.resetPin = false)
    (ho : inFlightIs isTrigger s = true) (err : Bool) :
    RequestsSound (handTrigger whenReloadable (fun _ => Machine.beginReading) err s) := by
  have hw : RequestsSound (finishAccess (.writeDone err) s) := requestsSound_dependsOn.keep (finishAccess_only _ s) h
  have ht : RequestsSound (takeCommand (finishAccess (.writeDone err) s)) := requestsSound_dependsOn.keep (takeCommand_only _) hw
  unfold handTrigger
  simp only [finishWrite_of_trigger ho]
  split
  · exact requestsSound_dependsOn.keep (pend_only _ _) hw
  split
  · rename_i hallowed
    exact ht.beginReading (reading_idle_of_reloadable ht.1 hallowed) hpin
  · exact ht.complete _ _ _

theorem handTrigger_keeps_requests {allowed : PartState → Bool} {act : List Word → State → State} {err : Bool} {s : State}
    (ho : inFlightIs isTrigger s = true) (hact : ∀ words u, RequestsSound u → RequestsSound (act words u))
    (hs : RequestsSound s) : RequestsSound (handTrigger allowed act err s) :=
  handTrigger_keeps requestsSound_dependsOn ho (fun words u _ h => hact words u h) hs

theorem effect_keeps_requests {c : Instr} {s : State} (hpin : s.resetPin = false)
    (hc : concerns [.resetPin, .partState, .reading, .reads, .ownPort, .fetch, .orphan, .requests] c = true)
    (ho : occurs c s = true) (hs : RequestsSound s) : RequestsSound (effect c s) := by
  cases c
  case arbiterStart => exact hs.arbitrate
  case starvationLimitReached => exact (hs.setMode .urgent).startOwn
  case ownReadComplete data err => exact hs.finishOwnRead data err
  case postNotice err => exact handTrigger_keeps_requests (trigger_of_triggers ho) (fun words _ h => h.postNotice words) hs
  case withdrawNotice err =>
    exact handTrigger_keeps_requests (trigger_of_triggers ho) (fun words _ h => h.withdrawNotice words) hs
  case reload err => exact hs.reload hpin (trigger_of_triggers ho) err
  all_goals exact (Bool.false_ne_true hc).elim

theorem requestsSound_afterReset (straps : BitVec 4) (ack busy : Bool) (n : Nat) (queue : List Instr) :
    RequestsSound (State.afterReset straps ack busy n queue) :=
  ⟨rfl, rfl, rfl, rfl, fun r hr => by simp [readInFlight, State.afterReset, MemPath.reset] at hr,
    fun h => by simp [State.afterReset, NoticeUnit.reset] at h⟩

theorem release_keeps_requests {s : State} (hpin : s.resetPin = true) (hs : RequestsSound s) : RequestsSound (release s) := by
  have h := hs.beginReading (reading_idle_of_asserted hs.1 hpin) (rfl : false = false)
  exact requestsSound_dependsOn.keep (fs := [.probeTimer]) (s := Machine.beginReading { s with resetPin := false })
    (.of_overlay rfl) h

/-- Settles O55: each requester, answered, asks for the word that it then waits for, or waits for none. -/
theorem stepKeepsRequestsSound : Obligations.StepKeepsRequestsSound := fun _ _ hs h =>
  step_keeps requestsSound_dependsOn rfl requestsSound_afterReset (fun _ hpin hs => release_keeps_requests hpin hs)
    (fun s t _ ht => requestsSound_dependsOn.keep (settle_only s t) ht)
    (fun _ _ hpin hc ho hs => effect_keeps_requests hpin hc ho hs) h hs

end Sys2Proof.Machine
end

section
/-! PROOFS. The drop table, the pending set, the probe list and the frame in flight keep their form (sections 6.1, 6.2 and 6.5). -/

namespace Sys2Proof.Machine

set_option Elab.async false

/-! ## The parts of the invariant -/

/-- The drop table has the roles of the layout in force and entries that fit them. -/
def TableFits (s : State) : Prop :=
  s.display.drops.length = 128 ∧ ∀ a < 128, (dropAt s a).role = roleOf s.params a ∧ (dropAt s a).fits = true

/-- The probe list holds each drop at most once, and only OFFLINE configured drops (R111). -/
def ProbesSound (s : State) : Prop :=
  (s.display.probes.map (·.drop)).Nodup ∧
    ∀ p ∈ s.display.probes, (dropAt s p.drop).online = false ∧ (dropAt s p.drop).role ≠ .none

/-- The frame in flight, unless its outcome is to be discarded, is to a configured drop, ONLINE unless it is a probe (R96). -/
def FrameSound (s : State) : Prop :=
  ∀ f, s.display.frame = some f → f.discard = false →
    (dropAt s f.drop).role ≠ .none ∧ (f.kind ≠ .probe → (dropAt s f.drop).online = true)

theorem displaySound_iff {s : State} : DisplaySound s ↔ TableFits s ∧ MarksSound s ∧ ProbesSound s ∧ FrameSound s := by
  unfold DisplaySound TableFits MarksSound ProbesSound FrameSound
  tauto

theorem displaySound_dependsOn : DependsOn [.params, .drops, .markSet, .probes, .frame] DisplaySound := by
  intro s t hd hs
  obtain ⟨htable, hmarks, hprobes, hframe⟩ := displaySound_iff.1 hs
  have hparams : t.params = s.params := hd .params (by decide)
  have hdrops : t.display.drops = s.display.drops := hd .drops (by decide)
  have hp : t.display.probes = s.display.probes := hd .probes (by decide)
  have hf : t.display.frame = s.display.frame := hd .frame (by decide)
  have hmarks' : MarksSound s → MarksSound t := hd .markSet (by decide)
  have hat : ∀ a, dropAt t a = dropAt s a := fun a => by rw [dropAt, hdrops, ← dropAt]
  refine displaySound_iff.2 ⟨?_, hmarks' hmarks, ?_, ?_⟩
  · unfold TableFits
    simp only [hat, hdrops, hparams]
    exact htable
  · unfold ProbesSound
    simp only [hat, hp]
    exact hprobes
  · unfold FrameSound
    simp only [hat, hf]
    exact hframe

/-- An address with a role is one of the table's. -/
theorem lt_of_role {s : State} {a : Nat} (hlen : s.display.drops.length = 128) (h : (dropAt s a).role ≠ .none) : a < 128 := by
  by_contra ha
  refine h ?_
  have hout : s.display.drops.length ≤ a := by omega
  rw [dropAt, List.getD_eq_default _ _ hout]
  rfl

/-! ## A drop table entry changed -/

theorem TableFits.modDrop {s : State} {a : Nat} {f : Drop → Drop} (h : TableFits s)
    (hrole : (f (dropAt s a)).role = (dropAt s a).role) (hfits : a < 128 → (f (dropAt s a)).fits = true) :
    TableFits (modDrop a f s) := by
  obtain ⟨hlen, hall⟩ := h
  refine ⟨by rw [modDrop_length, hlen], fun b hb => ?_⟩
  by_cases hba : b = a
  · subst hba
    rw [dropAt_modDrop_same s f (by omega)]
    exact ⟨hrole.trans (hall b hb).1, hfits hb⟩
  · rw [dropAt_modDrop_other s f hba]
    exact hall b hb

/-- An entry's part of what the sets of marks and probes ask of it, after a change that keeps roles. -/
theorem dropAt_modDrop_role {s : State} {a : Nat} {f : Drop → Drop} (hrole : (f (dropAt s a)).role = (dropAt s a).role) (b : Nat) :
    (dropAt (modDrop a f s) b).role = (dropAt s b).role := by
  by_cases hba : b = a
  · subst hba
    by_cases hlt : b < s.display.drops.length
    · rw [dropAt_modDrop_same s f hlt, hrole]
    · simp [dropAt, modDrop, hlt]
  · rw [dropAt_modDrop_other s f hba]

theorem dropAt_modDrop_online {s : State} {a : Nat} {f : Drop → Drop} {b : Nat}
    (h : b = a → (f (dropAt s a)).online = (dropAt s a).online) : (dropAt (modDrop a f s) b).online = (dropAt s b).online := by
  by_cases hba : b = a
  · subst hba
    by_cases hlt : b < s.display.drops.length
    · rw [dropAt_modDrop_same s f hlt, h rfl]
    · simp [dropAt, modDrop, hlt]
  · rw [dropAt_modDrop_other s f hba]

/-- A change of an entry keeps the pending set's form, where the entry comes or stays ONLINE or the drop holds no mark. -/
theorem MarksSound.modDrop {s : State} {a : Nat} {f : Drop → Drop} (h : MarksSound s)
    (hrole : (f (dropAt s a)).role = (dropAt s a).role)
    (honline : (f (dropAt s a)).online = true ∨ ∀ m ∈ s.display.marks, m.drop ≠ a) : MarksSound (modDrop a f s) := by
  refine ⟨h.1, fun m hm => ?_⟩
  obtain ⟨hon, hr⟩ := h.2 m hm
  rw [dropAt_modDrop_role hrole]
  refine ⟨?_, hr⟩
  rw [dropAt_modDrop_online, hon]
  intro hma
  obtain hf | hnot := honline
  · rw [hf, ← hma, hon]
  · exact absurd hma (hnot m hm)

theorem ProbesSound.modDrop {s : State} {a : Nat} {f : Drop → Drop} (h : ProbesSound s)
    (hrole : (f (dropAt s a)).role = (dropAt s a).role)
    (honline : (f (dropAt s a)).online = false ∨ ∀ p ∈ s.display.probes, p.drop ≠ a) : ProbesSound (modDrop a f s) := by
  refine ⟨h.1, fun p hp => ?_⟩
  obtain ⟨hoff, hr⟩ := h.2 p hp
  rw [dropAt_modDrop_role hrole]
  refine ⟨?_, hr⟩
  rw [dropAt_modDrop_online, hoff]
  intro hpa
  obtain hf | hnot := honline
  · rw [hf, ← hpa, hoff]
  · exact absurd hpa (hnot p hp)

/-- The invariant without a frame in flight. -/
theorem displaySound_of_idle {s : State} (hidle : s.display.frame = none) (htable : TableFits s) (hmarks : MarksSound s)
    (hprobes : ProbesSound s) : DisplaySound s :=
  displaySound_iff.2 ⟨htable, hmarks, hprobes, fun f hf => by rw [hidle] at hf; cases hf⟩

/-- A change of an entry on an idle link. -/
theorem DisplaySound.modDrop {s : State} {a : Nat} {f : Drop → Drop} (h : DisplaySound s) (hidle : s.display.frame = none)
    (hrole : (f (dropAt s a)).role = (dropAt s a).role) (hfits : a < 128 → (f (dropAt s a)).fits = true)
    (hmarks : (f (dropAt s a)).online = true ∨ ∀ m ∈ s.display.marks, m.drop ≠ a)
    (hprobes : (f (dropAt s a)).online = false ∨ ∀ p ∈ s.display.probes, p.drop ≠ a) : DisplaySound (modDrop a f s) := by
  obtain ⟨htable, hm, hp, -⟩ := displaySound_iff.1 h
  exact displaySound_of_idle hidle (htable.modDrop hrole hfits) (hm.modDrop hrole hmarks) (hp.modDrop hrole hprobes)

/-! ## Frames sent -/

theorem ProbesSound.filter {s : State} (p : Probe → Bool) (h : ProbesSound s) (f : Option Frame) :
    ProbesSound { s with display := { s.display with probes := s.display.probes.filter p, frame := f } } :=
  ⟨h.1.sublist (List.filter_sublist.map _), fun m hm => h.2 m (List.mem_of_mem_filter hm)⟩

theorem DisplaySound.sendMark {s : State} {m : Mark} (h : DisplaySound s) (hm : m ∈ s.display.marks) (forStep : Bool) :
    DisplaySound (sendMark m forStep s) := by
  obtain ⟨htable, hmarks, hprobes, -⟩ := displaySound_iff.1 h
  obtain ⟨honline, hrole⟩ := hmarks.2 m hm
  refine displaySound_iff.2 ⟨htable, hmarks.filter _ _, hprobes, fun f hf _ => ?_⟩
  cases hf
  exact ⟨hrole, fun _ => honline⟩

theorem DisplaySound.sendProbe {s : State} {p : Probe} (h : DisplaySound s) (hp : p ∈ s.display.probes) :
    DisplaySound (sendProbe p.drop s) := by
  obtain ⟨htable, hmarks, hprobes, -⟩ := displaySound_iff.1 h
  refine displaySound_iff.2 ⟨htable, hmarks, hprobes.filter _ _, fun f hf _ => ?_⟩
  cases hf
  exact ⟨(hprobes.2 p hp).2, fun hk => absurd rfl hk⟩

theorem oldestMark_mem {urgent : Bool} {s : State} {m : Mark} (h : oldestMark urgent s = some m) : m ∈ s.display.marks :=
  List.mem_of_find?_eq_some h

theorem stepMark_mem {s : State} {m : Mark} (h : stepMark s = some m) : m ∈ s.display.marks := by
  obtain h | ⟨-, h⟩ := Option.or_eq_some_iff.1 h
  · exact oldestMark_mem h
  · exact oldestMark_mem h

/-- What is chosen of a mark and a probe request is one of them. -/
theorem olderOf_cases {m : Option Mark} {p : Option Probe} {c : Choice} (h : olderOf m p = some c) :
    (∃ m', m = some m' ∧ c = .mark m') ∨ ∃ p', p = some p' ∧ c = .probe p' := by
  unfold olderOf at h
  split at h
  · split at h <;> cases h <;> simp
  · cases h
    exact .inl ⟨_, rfl, rfl⟩
  · cases h
    exact .inr ⟨_, rfl, rfl⟩
  · cases h

/-- What the Frame Scheduler chooses is a mark of the pending set or a request of the probe list. -/
theorem choose_mem {s : State} {c : Choice} (h : choose s = some c) :
    (∃ m ∈ s.display.marks, c = .mark m) ∨ ∃ p ∈ s.display.probes, c = .probe p := by
  have holder : ∀ m : Option Mark, (∀ m', m = some m' → m' ∈ s.display.marks) → olderOf m s.display.probes.head? = some c →
      (∃ m ∈ s.display.marks, c = .mark m) ∨ ∃ p ∈ s.display.probes, c = .probe p := by
    intro m hmem h
    obtain ⟨m', hm, rfl⟩ | ⟨p, hp, rfl⟩ := olderOf_cases h
    · exact .inl ⟨m', hmem m' hm, rfl⟩
    · exact .inr ⟨p, List.mem_of_head? hp, rfl⟩
  unfold choose at h
  split at h
  · obtain h | ⟨-, h⟩ := Option.or_eq_some_iff.1 h
    · exact holder _ (fun _ h => oldestMark_mem h) h
    · obtain ⟨m, hm, rfl⟩ := Option.map_eq_some_iff.1 h
      exact .inl ⟨m, oldestMark_mem hm, rfl⟩
  · exact holder _ (fun _ h => oldestMark_mem h) h
  · exact holder _ (fun _ h => by cases h) h

theorem DisplaySound.complete {s : State} (h : DisplaySound s) (p : Primary) (q : Secondary) (results : List Word) :
    DisplaySound (complete p q results s) := displaySound_dependsOn.keep (complete_only p q results s) h

theorem DisplaySound.withStep {s : State} (h : DisplaySound s) (p : StepPhase) :
    DisplaySound { s with display := { s.display with step := p } } := displaySound_dependsOn.keep (withStep_only p s) h

theorem DisplaySound.serveStep {s : State} (h : DisplaySound s) : DisplaySound (serveStep s) := by
  unfold Machine.serveStep
  split
  · split
    · rename_i m hm
      exact (h.withStep .sending).sendMark (stepMark_mem hm) true
    · exact (h.withStep .none).complete _ _ _
  · exact h

theorem DisplaySound.sendFrame {s : State} (h : DisplaySound s) : DisplaySound (sendFrame s) := by
  unfold Machine.sendFrame
  split
  · exact h.serveStep
  split
  · rename_i m hm
    obtain ⟨m', hm', he⟩ | ⟨p, -, he⟩ := choose_mem hm
    · cases he
      exact h.sendMark hm' false
    · cases he
  · rename_i p hp
    obtain ⟨m, -, he⟩ | ⟨p', hp', he⟩ := choose_mem hp
    · cases he
    · cases he
      exact h.sendProbe hp'
  · exact h

theorem DisplaySound.openWindow {s : State} (h : DisplaySound s) : DisplaySound (openWindow s) := by
  obtain ⟨htable, hmarks, hprobes, hframe⟩ := displaySound_iff.1 h
  refine displaySound_iff.2 ⟨htable, hmarks, hprobes, fun f hf hd => ?_⟩
  obtain ⟨f', hf', rfl⟩ := Option.map_eq_some_iff.1 hf
  exact hframe f' hf' hd

/-! ## The outcome of an exchange -/

/-- An ONLINE drop is not in the probe list. -/
theorem DisplaySound.not_probed {s : State} (h : DisplaySound s) {a : Nat} (honline : (dropAt s a).online = true) : ∀ p ∈ s.display.probes, p.drop ≠ a := by
  obtain ⟨-, -, hprobes, -⟩ := displaySound_iff.1 h
  rintro p hp rfl
  rw [(hprobes.2 p hp).1] at honline
  cases honline

section

variable {s : State} {f : Frame} (h : DisplaySound s) (hidle : s.display.frame = none)

include h hidle

theorem DisplaySound.bringOnline (a : Nat) : DisplaySound (bringOnline a s) := by
  obtain ⟨htable, hmarks, hprobes, -⟩ := displaySound_iff.1 h
  have hpruned : DisplaySound { s with display := { s.display with
      probes := s.display.probes.filter fun e => decide (e.drop ≠ a) } } :=
    displaySound_of_idle hidle htable hmarks (hprobes.filter _ s.display.frame)
  have hfits : Drop.fits { dropAt s a with online := true, failures := 0, shown := none } = true := by
    unfold Drop.fits
    cases (dropAt s a).role <;> rfl
  have hsound := hpruned.modDrop (a := a) (f := fun d => { d with online := true, failures := 0, shown := none }) hidle rfl
    (fun _ => hfits) (.inl rfl) (.inr fun p hp => by simpa using (List.mem_filter.1 hp).2)
  exact displaySound_dependsOn.keep ((pend_only .dropOnline _).trans (joinMark_only _ _)) hsound

theorem DisplaySound.ackDrop (honline : (dropAt s f.drop).online = true) (hrole : (dropAt s f.drop).role ≠ .none) :
    DisplaySound (ackDrop f s) := by
  refine h.modDrop hidle rfl (fun _ => ?_) (.inl honline) (.inr (h.not_probed honline))
  unfold Drop.fits
  cases hr : (dropAt s f.drop).role <;> simp_all

theorem DisplaySound.takeOffline {a : Nat} (hrole : (dropAt s a).role ≠ .none) : DisplaySound (takeOffline a s) := by
  obtain ⟨htable, hmarks, hprobes, -⟩ := displaySound_iff.1 h
  have hpruned : DisplaySound { s with display := { s.display with
      marks := s.display.marks.filter fun e => decide (e.drop ≠ a) } } :=
    displaySound_of_idle hidle htable (hmarks.filter _ s.display.frame) hprobes
  have hfits : a < 128 → Drop.fits { dropAt s a with online := false, failures := 0 } = true := by
    intro ha
    have hd := (htable.2 a ha).2
    unfold Drop.fits at hd ⊢
    cases hr : (dropAt s a).role <;> simp_all
  have hsound := hpruned.modDrop (a := a) (f := fun d => { d with online := false, failures := 0 }) hidle rfl hfits
    (.inr fun m hm => by simpa using (List.mem_filter.1 hm).2) (.inl rfl)
  exact displaySound_dependsOn.keep (pend_only .dropOffline _) hsound

theorem DisplaySound.countFailure (honline : (dropAt s f.drop).online = true) (hrole : (dropAt s f.drop).role ≠ .none)
    (hlow : (dropAt s f.drop).failures < 2) : DisplaySound (countFailure f s) := by
  obtain ⟨htable, -⟩ := displaySound_iff.1 h
  refine displaySound_dependsOn.keep (joinMark_only _ _)
    (h.modDrop hidle rfl (fun ha => ?_) (.inl honline) (.inr (h.not_probed honline)))
  have hd := (htable.2 f.drop ha).2
  unfold Drop.fits at hd ⊢
  cases hr : (dropAt s f.drop).role <;> simp_all

end

/-- The frame in flight leaves the link. -/
theorem DisplaySound.idle {s : State} (h : DisplaySound s) :
    DisplaySound { s with display := { s.display with frame := none } } := by
  obtain ⟨htable, hmarks, hprobes, -⟩ := displaySound_iff.1 h
  exact displaySound_of_idle rfl htable hmarks hprobes

theorem DisplaySound.applyOutcome {s : State} {f : Frame} (h : DisplaySound s) (hf : s.display.frame = some f) (o : Exchange) :
    DisplaySound (applyOutcome f o { s with display := { s.display with frame := none } }) := by
  have hframe := (displaySound_iff.1 h).2.2.2 f hf
  have hi := h.idle
  unfold Machine.applyOutcome
  split
  · exact hi
  rename_i hdiscard
  obtain ⟨hrole, honline⟩ := hframe (by simpa using hdiscard)
  split
  · split
    · exact hi.bringOnline rfl _
    · exact hi
  rename_i hkind
  split
  · exact hi.ackDrop rfl (honline hkind) hrole
  · unfold failDrop
    split
    · exact hi.takeOffline rfl hrole
    · rename_i hthird
      exact hi.countFailure rfl (honline hkind) hrole (by simpa [isThird] using hthird)

theorem DisplaySound.finishExchange {s : State} (h : DisplaySound s) (o : Exchange) : DisplaySound (finishExchange o s) := by
  unfold Machine.finishExchange
  split
  · rename_i f hf
    have hend : DisplaySound (endExchange f o s) := by
      unfold endExchange
      dsimp only
      split
      · exact ((h.applyOutcome hf o).withStep .none).complete _ _ _
      · exact h.applyOutcome hf o
    dsimp only
    split
    · exact (displaySound_dependsOn.keep (noteIf_only _ _ _) hend).serveStep
    · exact hend
  · exact h

/-! ## Probe requests -/

theorem mem_offlineDrops {s : State} {a : Nat} (h : a ∈ offlineDrops s) :
    (dropAt s a).online = false ∧ (dropAt s a).role ≠ .none := by
  simp only [offlineDrops, configuredDrops, List.mem_filter, Bool.not_eq_true', decide_eq_true_eq] at h
  exact ⟨h.2, h.1.2⟩

theorem DisplaySound.joinProbe {s : State} {a : Nat} (h : DisplaySound s)
    (ha : (dropAt s a).online = false ∧ (dropAt s a).role ≠ .none) : DisplaySound (joinProbe a s) := by
  obtain ⟨htable, hmarks, ⟨hnodup, hall⟩, hframe⟩ := displaySound_iff.1 h
  unfold Machine.joinProbe
  split
  · exact h
  · rename_i hnew
    refine displaySound_iff.2 ⟨htable, hmarks, ⟨?_, fun p hp => ?_⟩, hframe⟩
    · have hnot : a ∉ s.display.probes.map (·.drop) := by simpa using hnew
      simp only [List.map_append, List.map_cons, List.map_nil]
      exact List.nodup_append.2 ⟨hnodup, by simp, fun b hb c hc => by
        rintro rfl
        simp only [List.mem_singleton] at hc
        exact hnot (hc ▸ hb)⟩
    · obtain hp | hp := List.mem_append.1 hp
      · exact hall p hp
      · simp only [List.mem_singleton] at hp
        subst hp
        exact ha

theorem DisplaySound.probeTick {s : State} (h : DisplaySound s) : DisplaySound (probeTick s) := by
  unfold Machine.probeTick
  split
  · rename_i a ha
    have hmem : a ∈ offlineDrops s := by
      obtain ha | ⟨-, ha⟩ := Option.or_eq_some_iff.1 ha
      · exact List.mem_of_find?_eq_some ha
      · exact List.mem_of_head? ha
    exact DisplaySound.joinProbe (s := { s with display := { s.display with pointer := a } })
      (displaySound_dependsOn.keep (fs := [.pointer]) (.of_overlay rfl) h) (mem_offlineDrops hmem)
  · exact h

theorem DisplaySound.joinProbes {s : State} (h : DisplaySound s) (l : List Nat)
    (hl : ∀ a ∈ l, (dropAt s a).online = false ∧ (dropAt s a).role ≠ .none) :
    DisplaySound (l.foldl (fun t a => Machine.joinProbe a t) s) := by
  induction l generalizing s with
  | nil => exact h
  | cons a rest ih =>
    refine ih (h.joinProbe (hl a (.head _))) fun b hb => ?_
    have hdrops : (Machine.joinProbe a s).display.drops = s.display.drops := (joinProbe_only a s).same .drops
    rw [dropAt, hdrops, ← dropAt]
    exact hl b (.tail _ hb)

theorem DisplaySound.probeDropsCommand {s : State} (h : DisplaySound s) : DisplaySound (probeDropsCommand s) :=
  (h.joinProbes (offlineDrops s) fun _ ha => mem_offlineDrops ha).complete _ _ _

/-! ## A new layout -/

theorem takeRole_role (r : Role) (d : Drop) : (d.takeRole r).role = r := by
  unfold Drop.takeRole
  split
  · exact Eq.symm ‹_›
  split
  · exact Eq.symm ‹_›
  split <;> rfl

theorem takeRole_online {r : Role} {d : Drop} (h : r ≠ .none) : (d.takeRole r).online = d.online := by
  unfold Drop.takeRole
  split
  · rfl
  split <;> rfl

theorem takeRole_fits (r : Role) {d : Drop} (h : d.fits = true) : (d.takeRole r).fits = true := by
  unfold Drop.takeRole
  split
  · exact h
  split
  · rfl
  · unfold Drop.fits at h ⊢
    cases hr : r <;> cases hd : d.role <;> simp_all [bothWall]

theorem dropAt_takeRoles {s : State} (q : Params) {a : Nat} (ha : a < s.display.drops.length) :
    dropAt (takeRoles q s) a = (dropAt s a).takeRole (roleOf q a) := by
  simp [dropAt, takeRoles, ha]

/-- The drop table takes the roles of a layout that comes into force. -/
theorem DisplaySound.takeRoles {s : State} (h : DisplaySound s) (q : Params) :
    DisplaySound (setParams q (takeRoles q s)) := by
  obtain ⟨⟨hlen, hall⟩, hmarks, hprobes, hframe⟩ := displaySound_iff.1 h
  have hat : ∀ a, a < 128 → dropAt (setParams q (Machine.takeRoles q s)) a = (dropAt s a).takeRole (roleOf q a) :=
    fun a ha => dropAt_takeRoles q (by omega)
  have hkept : ∀ a, (dropAt s a).role ≠ .none → (decide (roleOf q a ≠ .none) || decide ((dropAt s a).role = .none)) = true →
      (dropAt (setParams q (Machine.takeRoles q s)) a).online = (dropAt s a).online ∧
        (dropAt (setParams q (Machine.takeRoles q s)) a).role ≠ .none := by
    intro a hrole hk
    have hr : roleOf q a ≠ .none := by simpa [hrole] using hk
    rw [hat a (lt_of_role hlen hrole), takeRole_role, takeRole_online hr]
    exact ⟨rfl, hr⟩
  refine displaySound_iff.2 ⟨⟨?_, fun a ha => ?_⟩, ⟨?_, fun m hm => ?_⟩, ⟨?_, fun p hp => ?_⟩, fun f hf hd => ?_⟩
  · simp [setParams, Machine.takeRoles, hlen]
  · rw [hat a ha, takeRole_role]
    exact ⟨rfl, takeRole_fits _ (hall a ha).2⟩
  · exact hmarks.1.sublist (List.filter_sublist.map _)
  · obtain ⟨hm, hk⟩ := List.mem_filter.1 hm
    obtain ⟨honline, hrole⟩ := hmarks.2 m hm
    obtain ⟨h₁, h₂⟩ := hkept m.drop hrole hk
    exact ⟨h₁.trans honline, h₂⟩
  · exact hprobes.1.sublist (List.filter_sublist.map _)
  · obtain ⟨hp, hk⟩ := List.mem_filter.1 hp
    obtain ⟨hoff, hrole⟩ := hprobes.2 p hp
    obtain ⟨h₁, h₂⟩ := hkept p.drop hrole hk
    exact ⟨h₁.trans hoff, h₂⟩
  · obtain ⟨f', hf', rfl⟩ := Option.map_eq_some_iff.1 hf
    simp only [Bool.or_eq_false_iff, decide_eq_false_iff_not, not_not] at hd
    obtain ⟨hdiscard, hsame⟩ := hd
    obtain ⟨hrole, honline⟩ := hframe f' hf' hdiscard
    obtain ⟨h₁, h₂⟩ := hkept f'.drop hrole (by simp [hsame, hrole])
    exact ⟨h₂, fun hk => h₁.trans (honline hk)⟩

theorem DisplaySound.applyConfig {s : State} (h : DisplaySound s) (words : List Word) : DisplaySound (applyConfig words s) :=
  displaySound_dependsOn.keep (((((discardBoards_only (setParams (paramsOf words) (Machine.takeRoles (paramsOf words) s))).trans
    (followMode_only _)).trans (applySource_only _ _)).trans (noteConfigured_only _)).trans (applyRoll_only _ _))
    (h.takeRoles (paramsOf words))

/-! ## The step -/

theorem displaySound_keepsAnswers : KeepsAnswers DisplaySound where
  config words _ _ h := h.applyConfig words
  stage i k w s h := displaySound_dependsOn.keep (stageWord_only i k w s) h
  load _ _ s h := displaySound_dependsOn.keep (loadOutcome_only _ _ s) h
  refresh s h := displaySound_dependsOn.keep (handMarks_only _ s) h
  fetch _ _ _ s h := displaySound_dependsOn.keep (deliverFetch_only _ _ _ s) h

theorem effect_keeps_display {c : Instr} {s : State} (hc : concerns [.params, .drops, .markSet, .probes, .frame] c = true)
    (ho : occurs c s = true) (hs : DisplaySound s) : DisplaySound (effect c s) := by
  cases c
  case ownReadComplete data err => exact finishOwnRead_keeps displaySound_dependsOn displaySound_keepsAnswers rfl data err hs
  case stepFrame err =>
    refine handTrigger_keeps displaySound_dependsOn (trigger_of_triggers ho) (fun _ u _ h => ?_) hs
    unfold stepFrameCommand
    split
    · exact h.complete _ _ _
    · exact (h.withStep .waiting).serveStep
  case probeDrops err =>
    exact handTrigger_keeps displaySound_dependsOn (trigger_of_triggers ho) (fun _ _ _ h => h.probeDropsCommand) hs
  case frameSend => exact hs.sendFrame
  case frameTransmitted => exact hs.openWindow
  case reply bytes =>
    show DisplaySound (receiveReply bytes s)
    unfold receiveReply
    split
    · exact hs.finishExchange _
    · exact hs
  case replyWindowClose => exact hs.finishExchange _
  case dropOffline cause => exact hs.finishExchange _
  case probeTimerExpiry => exact hs.probeTick
  all_goals exact (Bool.false_ne_true hc).elim

theorem displaySound_afterReset (straps : BitVec 4) (ack busy : Bool) (n : Nat) (queue : List Instr) :
    DisplaySound (State.afterReset straps ack busy n queue) := by
  have hat : ∀ a < 128, dropAt (State.afterReset straps ack busy n queue) a = Drop.fresh (roleOf Params.reset a) := by
    intro a ha
    simp [dropAt, State.afterReset, Display.reset, ha]
  refine displaySound_of_idle rfl ⟨by simp [State.afterReset, Display.reset], fun a ha => ?_⟩
    ⟨List.nodup_nil, fun m hm => by cases hm⟩ ⟨List.nodup_nil, fun p hp => by cases hp⟩
  rw [hat a ha]
  refine ⟨rfl, ?_⟩
  unfold Drop.fits
  cases hr : roleOf Params.reset a <;> simp [Drop.fresh]

/-- Settles O56: entry by entry through each outcome of an exchange, and through a new layout. -/
theorem stepKeepsDisplaySound : Obligations.StepKeepsDisplaySound := fun _ _ hs h =>
  step_keeps displaySound_dependsOn rfl displaySound_afterReset
    (fun s _ hs => displaySound_dependsOn.keep (release_only s) hs)
    (fun s t _ ht => displaySound_dependsOn.keep (settle_only s t) ht)
    (fun _ _ _ hc ho hs => effect_keeps_display hc ho hs) h hs

end Sys2Proof.Machine
end

section
/-! PROOFS. The row map lists exactly the active slots, each once, in strictly ascending key order (sections 2.4, 4.6 and 5.1). -/

namespace Sys2Proof.Machine

set_option Elab.async false

/-! ## The ordering key (R70) -/

/-- The expected key of a slot; 0 where it holds none. -/
def Slot.ke (x : Slot) : Int := (x.keys.map (·.ke)).getD 0

/-- The applied platform of a slot; 0 where it holds no record. -/
def Slot.platform (x : Slot) : Nat := (x.applied.map (·.platform)).getD 0

theorem before_eq (s : State) (i j : Nat) :
    before s i j = keyLess (slotAt s i).ke (slotAt s i).platform i (slotAt s j).ke (slotAt s j).platform j := rfl

theorem keyLess_iff {ke₁ ke₂ : Int} {p₁ p₂ i₁ i₂ : Nat} :
    keyLess ke₁ p₁ i₁ ke₂ p₂ i₂ = true ↔ ke₁ < ke₂ ∨ ke₁ = ke₂ ∧ (p₁ < p₂ ∨ p₁ = p₂ ∧ i₁ < i₂) := by
  simp [keyLess]

theorem before_trans {s : State} {i j k : Nat} (h : before s i j = true) (h' : before s j k = true) : before s i k = true := by
  rw [before_eq, keyLess_iff] at *
  omega

/-- Of two slots one comes first. -/
theorem before_total {s : State} {i j : Nat} (hne : i ≠ j) (h : before s i j = false) : before s j i = true := by
  rw [before_eq, Bool.eq_false_iff, ne_eq, keyLess_iff] at h
  rw [before_eq, keyLess_iff]
  omega

/-- In an ascending list, what comes before an outsider stands at the front. -/
theorem filter_before_eq_take {s : State} {i : Nat} {l : List Nat} (h : l.Pairwise fun a b => before s a b = true) :
    l.filter (fun j => before s j i) = l.take (l.filter fun j => before s j i).length := by
  induction l with
  | nil => rfl
  | cons a rest ih =>
    obtain ⟨hhead, htail⟩ := List.pairwise_cons.1 h
    cases ha : before s a i with
    | true => simp [ha, ← ih htail]
    | false =>
      have hnone : rest.filter (fun j => before s j i) = [] := by
        refine List.filter_eq_nil_iff.2 fun b hb hbi => ?_
        rw [before_trans (hhead b hb) hbi] at ha
        cases ha
      simp [ha, hnone]

theorem insertIdx_eq_take_cons_drop {α : Type} (a : α) (l : List α) {n : Nat} (h : n ≤ l.length) :
    l.insertIdx n a = l.take n ++ a :: l.drop n := by
  induction l generalizing n with
  | nil =>
    obtain rfl : n = 0 := by simpa using h
    rfl
  | cons b rest ih =>
    cases n with
    | zero => rfl
    | succ n => simp [ih (by simpa using h)]

/-- A slot inserted behind the entries whose key is less stands in order (R75). -/
theorem pairwise_insert {s : State} {i : Nat} {l : List Nat} (h : l.Pairwise fun a b => before s a b = true)
    (hi : i ∉ l) : (l.insertIdx (l.filter fun j => before s j i).length i).Pairwise fun a b => before s a b = true := by
  obtain ⟨n, hn⟩ : ∃ n, n = (l.filter fun j => before s j i).length := ⟨_, rfl⟩
  have hle : n ≤ l.length := hn ▸ List.length_filter_le _ l
  have hsplit : (l.take n ++ l.drop n).Pairwise fun a b => before s a b = true := by rwa [List.take_append_drop]
  have htake : l.filter (fun j => before s j i) = l.take n := hn ▸ filter_before_eq_take h
  have hless : ∀ a ∈ l.take n, before s a i = true := fun a ha => by
    rw [← htake] at ha
    exact (List.mem_filter.1 ha).2
  have hmore : ∀ a ∈ l.drop n, before s i a = true := by
    intro a ha
    refine before_total (fun he => hi (he ▸ List.mem_of_mem_drop ha)) ?_
    by_contra hlt
    have hmem : a ∈ l.take n := htake ▸ List.mem_filter.2 ⟨List.mem_of_mem_drop ha, by simpa using hlt⟩
    have hself := (List.pairwise_append.1 hsplit).2.2 a hmem a ha
    rw [before_eq, keyLess_iff] at hself
    omega
  obtain ⟨hfront, hback, hcross⟩ := List.pairwise_append.1 hsplit
  rw [← hn, insertIdx_eq_take_cons_drop i l hle]
  refine List.pairwise_append.2 ⟨hfront, List.pairwise_cons.2 ⟨hmore, hback⟩, fun a ha b hb => ?_⟩
  obtain rfl | hb := List.mem_cons.1 hb
  · exact hless a ha
  · exact hcross a ha b hb

/-! ## What the invariant reads -/

/-- What of a slot the row map and its order read. -/
theorem slotAt_of_core {s t : State} (h : Same .slotCore s t) (i : Nat) : (slotAt t i).core = (slotAt s i).core := by
  have h' : (t.slots.map Slot.core).getD i Slot.reset.core = (s.slots.map Slot.core).getD i Slot.reset.core := by
    rw [(h : t.slots.map Slot.core = s.slots.map Slot.core)]
  rwa [List.getD_map, List.getD_map] at h'

theorem state_of_core {x y : Slot} (h : x.core = y.core) : x.state = y.state :=
  (congrArg (·.state) h : x.core.state = y.core.state)
theorem ke_of_core {x y : Slot} (h : x.core = y.core) : x.ke = y.ke :=
  (congrArg Slot.ke h : x.core.ke = y.core.ke)
theorem platform_of_core {x y : Slot} (h : x.core = y.core) : x.platform = y.platform :=
  (congrArg Slot.platform h : x.core.platform = y.core.platform)
theorem fits_of_core {x y : Slot} (h : x.core = y.core) : x.fits = y.fits :=
  (congrArg Slot.fits h : x.core.fits = y.core.fits)

theorem length_of_core {s t : State} (h : Same .slotCore s t) : t.slots.length = s.slots.length := by
  have h' := congrArg List.length (h : t.slots.map Slot.core = s.slots.map Slot.core)
  rwa [List.length_map, List.length_map] at h'

/-- Every slot fits, slot by slot. -/
theorem all_fit_iff {s : State} (hlen : s.slots.length = 96) :
    (∀ x ∈ s.slots, x.fits = true) ↔ ∀ i < 96, (slotAt s i).fits = true := by
  constructor
  · intro h i hi
    exact h _ (by rw [slotAt, List.getD_eq_getElem _ _ (by omega)]; exact List.getElem_mem _)
  · intro h x hx
    obtain ⟨i, hi, rfl⟩ := List.getElem_of_mem hx
    have := h i (by omega)
    rwa [slotAt, List.getD_eq_getElem _ _ hi] at this

theorem rowMapSound_dependsOn : DependsOn [.slotCore, .rowMap] RowMapSound := by
  intro s t hd hs
  obtain ⟨hlen, hfits, hnodup, hmem, hsorted⟩ := hs
  have hcore : Same .slotCore s t := hd .slotCore (by decide)
  have hrow : t.rowMap = s.rowMap := hd .rowMap (by decide)
  have hlen' : t.slots.length = 96 := (length_of_core hcore).trans hlen
  refine ⟨hlen', (all_fit_iff hlen').2 fun i hi => ?_, hrow ▸ hnodup, fun i => ?_, ?_⟩
  · rw [fits_of_core (slotAt_of_core hcore i)]
    exact (all_fit_iff hlen).1 hfits i hi
  · rw [hrow, state_of_core (slotAt_of_core hcore i)]
    exact hmem i
  · rw [hrow]
    refine hsorted.imp fun {a b} hab => ?_
    rwa [before_eq, ke_of_core (slotAt_of_core hcore a), ke_of_core (slotAt_of_core hcore b),
      platform_of_core (slotAt_of_core hcore a), platform_of_core (slotAt_of_core hcore b), ← before_eq]

/-! ## One slot replaced -/

/-- A slot changed and placed anew. -/
theorem RowMapSound.place {s : State} (h : RowMapSound s) (i : Nat) {x : Slot} (hx : x.fits = true) :
    RowMapSound (place i (setSlot i x s)) := by
  obtain ⟨hlen, hfits, hnodup, hmem, hsorted⟩ := h
  have hlen' : (Machine.place i (setSlot i x s)).slots.length = 96 := by simp [hlen]
  have hother : ∀ j, j ≠ i → slotAt (setSlot i x s) j = slotAt s j := fun j hj => slotAt_setSlot_other s x hj
  have hout : i ∉ s.rowMap.filter (fun j => decide (j ≠ i)) := by simp
  have hsorted' : (s.rowMap.filter fun j => decide (j ≠ i)).Pairwise fun a b => before (setSlot i x s) a b = true := by
    refine (hsorted.filter _).imp_of_mem fun {a b} ha hb hab => ?_
    have ha' : a ≠ i := by simpa using (List.mem_filter.1 ha).2
    have hb' : b ≠ i := by simpa using (List.mem_filter.1 hb).2
    rwa [before_eq, hother a ha', hother b hb', ← before_eq]
  have hat : ∀ j, slotAt (Machine.place i (setSlot i x s)) j = slotAt (setSlot i x s) j := fun j => by
    simp [slotAt]
  have hbefore : ∀ a b, before (Machine.place i (setSlot i x s)) a b = before (setSlot i x s) a b := fun a b => by
    rw [before_eq, hat a, hat b, ← before_eq]
  refine ⟨hlen', (all_fit_iff hlen').2 fun j hj => ?_, ?_, fun j => ?_, ?_⟩
  · rw [hat]
    by_cases hji : j = i
    · subst hji
      rwa [slotAt_setSlot_same s x (by omega)]
    · rw [hother j hji]
      exact (all_fit_iff hlen).1 hfits j hj
  · unfold Machine.place
    dsimp only
    split
    · exact (List.nodup_cons.2 ⟨hout, hnodup.filter _⟩ |> (List.perm_insertIdx _ _ (List.length_filter_le _ _)).nodup_iff.2)
    · exact hnodup.filter _
  · rw [mem_place, hat]
    by_cases hji : j = i
    · subst hji
      by_cases hj : j < 96
      · simp [hj]
      · have hvacant : (slotAt (setSlot j x s) j).state.active = false := by
          rw [slotAt, List.getD_eq_default _ _ (by simp; omega)]
          rfl
        simp [hj, hvacant]
    · rw [hother j hji]
      simpa [hji] using hmem j
  · simp only [hbefore]
    unfold Machine.place
    dsimp only
    split
    · exact pairwise_insert hsorted' hout
    · exact hsorted'

/-- A slot emptied and taken out. -/
theorem RowMapSound.unplace {s : State} (h : RowMapSound s) (i : Nat) {x : Slot} (hx : x.fits = true)
    (hidle : x.state.active = false) : RowMapSound (unplace i (setSlot i x s)) := by
  have hp := h.place i hx
  have heq : Machine.place i (setSlot i x s) = Machine.unplace i (setSlot i x s) := by
    have hstate : (slotAt (setSlot i x s) i).state.active = false := by
      by_cases hi : i < s.slots.length
      · rwa [slotAt_setSlot_same s x hi]
      · rw [slotAt, List.getD_eq_default _ _ (by simp; omega)]
        rfl
    unfold Machine.place Machine.unplace
    simp [hstate]
  rwa [heq] at hp

/-! ## Records taken and slots vacated -/

theorem stateFor_ne_vacant (q : Params) (c : Clock) (cancelled : Bool) (ke : Int) : stateFor q c cancelled ke ≠ .vacant := by
  unfold stateFor
  split
  · split <;> decide
  split
  · decide
  split
  · decide
  split
  · decide
  split <;> decide

theorem refusalOf_eq_none_iff {platforms : Nat} {staging : List Word} :
    refusalOf platforms staging = none ↔ Passes platforms staging := by
  unfold refusalOf Passes
  split
  · simp; omega
  split
  · simp [*]
  split
  · simp; omega
  split
  · simp [*]
  · simp [*]
    omega

theorem offset_range (d : DaySelect) : -1 ≤ d.offset ∧ d.offset ≤ 1 := by cases d <;> decide

theorem keysFit_iff {r : Record} {k : Keys} :
    keysFit r k = true ↔ r.minute < 1440 ∧ r.delay ≤ 719 ∧ r.destination ≠ 0 ∧ k.ks < 1440 ∧ -1 ≤ k.offset ∧ k.offset ≤ 1 ∧
      k.ke = k.ks + 1440 * k.offset + r.delay := by
  simp only [keysFit, Bool.and_eq_true, decide_eq_true_eq, and_assoc]

/-- A record that passes the checks fits the slot that takes it. -/
theorem Slot.fits_take {q : Params} {c : Clock} {x : Slot} {platforms : Nat} (h : Passes platforms x.staging) :
    (x.take q c).fits = true := by
  obtain ⟨hminute, -, -, hdest⟩ := h
  have hoffset := offset_range (recordOf x.staging).day
  have hks : ((recordOf x.staging).minute + 1440 - c.roll) % 1440 < 1440 := Nat.mod_lt _ (by decide)
  have hdelay : (recordOf x.staging).delay ≤ 719 := Nat.min_le_right _ _
  have hkeys : keysFit (recordOf x.staging) (keysOf c.roll (recordOf x.staging)) = true := by
    rw [keysFit_iff]
    exact ⟨hminute, hdelay, hdest, hks, hoffset.1, hoffset.2, rfl⟩
  show (decide _ && keysFit _ _) = true
  rw [hkeys, Bool.and_true]
  exact decide_eq_true (stateFor_ne_vacant _ _ _ _)

theorem RowMapSound.takeRecord {s : State} (h : RowMapSound s) (i : Nat) (quiet : Bool) {platforms : Nat}
    (hpass : Passes platforms (slotAt s i).staging) : RowMapSound (takeRecord i quiet s) := by
  exact rowMapSound_dependsOn.keep (takeRecord_placed i quiet s) (h.place i (Slot.fits_take hpass))

theorem RowMapSound.vacateSlot {s : State} (h : RowMapSound s) (i : Nat) (result : LastResult) (generation : Nat) :
    RowMapSound (vacateSlot i result generation s) :=
  rowMapSound_dependsOn.keep (vacateSlot_emptied i result generation s) (h.unplace i rfl rfl)

theorem RowMapSound.loadOutcome {s : State} (h : RowMapSound s) (i : Nat) (faulted : Bool) :
    RowMapSound (loadOutcome i faulted s) := by
  unfold Machine.loadOutcome
  dsimp only
  split
  · exact h.vacateSlot i _ _
  split
  · split
    · exact h.vacateSlot i _ _
    · rename_i hnone
      exact h.takeRecord i true (refusalOf_eq_none_iff.1 hnone)
  · exact h.vacateSlot i _ _

theorem RowMapSound.considerCommit {s : State} (h : RowMapSound s) (i : Nat) (loading : Bool) :
    RowMapSound (considerCommit i loading s) := by
  unfold Machine.considerCommit
  dsimp only
  split
  · split
    · exact rowMapSound_dependsOn.keep (modSlot_share i _ s) h
    · rename_i hnone
      exact h.takeRecord i _ (refusalOf_eq_none_iff.1 hnone)
  · exact h.vacateSlot i _ _

/-! ## Every slot changed -/

/-- A change of every slot that takes slots out of the row map, and shifts the keys of those that stay by one amount. -/
theorem RowMapSound.prune {s : State} (h : RowMapSound s) {f : Slot → Slot} (shift : Int)
    (hfits : ∀ x : Slot, x.fits = true → (f x).fits = true)
    (hactive : ∀ x : Slot, (f x).state.active = true → x.state.active = true)
    (hkeys : ∀ x : Slot, x.fits = true → (f x).state.active = true → (f x).ke = x.ke + shift ∧ (f x).platform = x.platform) :
    RowMapSound (pruneRowMap { s with slots := s.slots.map f }) := by
  obtain ⟨hlen, hall, hnodup, hmem, hsorted⟩ := h
  have hat : ∀ i < 96, slotAt (pruneRowMap { s with slots := s.slots.map f }) i = f (slotAt s i) := by
    intro i hi
    have hi' : i < s.slots.length := by omega
    simp [slotAt, pruneRowMap, hi']
  have hlen' : (pruneRowMap { s with slots := s.slots.map f }).slots.length = 96 := by simp [pruneRowMap, hlen]
  have hrow : ∀ i, i ∈ (pruneRowMap { s with slots := s.slots.map f }).rowMap ↔
      i ∈ s.rowMap ∧ (slotAt (pruneRowMap { s with slots := s.slots.map f }) i).state.active = true := fun i =>
    List.mem_filter
  refine ⟨hlen', (all_fit_iff hlen').2 fun i hi => ?_, hnodup.filter _, fun i => ?_, ?_⟩
  · rw [hat i hi]
    exact hfits _ ((all_fit_iff hlen).1 hall i hi)
  · rw [hrow, hmem]
    constructor
    · exact fun ⟨⟨hi, _⟩, ha⟩ => ⟨hi, ha⟩
    · exact fun ⟨hi, ha⟩ => ⟨⟨hi, hactive _ (hat i hi ▸ ha)⟩, ha⟩
  · refine (hsorted.filter _).imp_of_mem fun {a b} ha hb hab => ?_
    have hkey : ∀ i, i ∈ (pruneRowMap { s with slots := s.slots.map f }).rowMap →
        (slotAt (pruneRowMap { s with slots := s.slots.map f }) i).ke = (slotAt s i).ke + shift ∧
          (slotAt (pruneRowMap { s with slots := s.slots.map f }) i).platform = (slotAt s i).platform := by
      intro i hi
      obtain ⟨hold, hnew⟩ := (hrow i).1 hi
      have hi' := ((hmem i).1 hold).1
      rw [hat i hi'] at hnew ⊢
      exact hkeys _ ((all_fit_iff hlen).1 hall i hi') hnew
    obtain ⟨ha₁, ha₂⟩ := hkey a ha
    obtain ⟨hb₁, hb₂⟩ := hkey b hb
    rw [before_eq, keyLess_iff] at hab ⊢
    rw [ha₁, ha₂, hb₁, hb₂]
    omega

/-! ## The day roll and the second event -/

/-- A slot that fits holds both its record and its keys, or neither. -/
theorem Slot.fits_cases {x : Slot} (h : x.fits = true) :
    x.applied = none ∧ x.keys = none ∧ x.state = .vacant ∨
      ∃ r k, x.applied = some r ∧ x.keys = some k ∧ x.state ≠ .vacant ∧ keysFit r k = true := by
  unfold Slot.fits at h
  split at h
  · exact .inl ⟨‹_›, ‹_›, by simpa using h⟩
  · rename_i r k hr hk
    simp only [Bool.and_eq_true, decide_eq_true_eq] at h
    exact .inr ⟨r, k, hr, hk, h.1, h.2⟩
  · cases h

theorem Slot.fits_of_some {x : Slot} {r : Record} {k : Keys} (hr : x.applied = some r) (hk : x.keys = some k)
    (hstate : x.state ≠ .vacant) (hkeys : keysFit r k = true) : x.fits = true := by
  simp [Slot.fits, hr, hk, hstate, hkeys]

theorem Slot.fits_rebase {x : Slot} (h : x.fits = true) : x.rebase.fits = true := by
  obtain ⟨-, hk, -⟩ | ⟨r, k, hr, hk, hstate, hkeys⟩ := Slot.fits_cases h
  · have hsame : x.rebase = x := by simp [Slot.rebase, hk]
    rwa [hsame]
  · unfold Slot.rebase
    rw [hk]
    dsimp only
    split
    · split
      · exact Slot.fits_of_some (x := { x with keys := some k, state := .expired }) hr rfl nofun hkeys
      · rename_i hoff
        refine Slot.fits_of_some (x := { x with keys := some { k with offset := k.offset - 1, ke := k.ke - 1440 } })
          hr rfl hstate ?_
        obtain ⟨hm, hd, hdest, hks, hlo, hhi, hke⟩ := keysFit_iff.1 hkeys
        exact keysFit_iff.2 ⟨hm, hd, hdest, hks, by show -1 ≤ k.offset - 1; omega, by show k.offset - 1 ≤ 1; omega,
          by show k.ke - 1440 = k.ks + 1440 * (k.offset - 1) + r.delay; omega⟩
    · exact h

theorem Slot.active_of_rebase {x : Slot} (h : x.rebase.state.active = true) : x.state.active = true := by
  unfold Slot.rebase at h
  split at h
  · split at h
    · assumption
    · exact h
  · exact h

/-- A slot that stays active at the day roll has its key a day earlier. -/
theorem Slot.rebase_keys {x : Slot} (h : x.fits = true) (ha : x.rebase.state.active = true) :
    x.rebase.ke = x.ke + -1440 ∧ x.rebase.platform = x.platform := by
  have hx := Slot.active_of_rebase ha
  obtain ⟨-, -, hvacant⟩ | ⟨r, k, hr, hk, -, -⟩ := Slot.fits_cases h
  · rw [hvacant] at hx
    cases hx
  · unfold Slot.rebase at ha ⊢
    rw [hk] at ha ⊢
    dsimp only at ha ⊢
    rw [if_pos hx] at ha ⊢
    split
    · rename_i hoff
      rw [if_pos hoff] at ha
      cases ha
    · refine ⟨?_, rfl⟩
      simp only [Slot.ke, hk, Option.map_some, Option.getD_some]
      omega

theorem RowMapSound.dayRoll {s : State} (h : RowMapSound s) : RowMapSound (dayRoll s) := by
  have hp := h.prune (-1440) (fun _ hx => Slot.fits_rebase hx) (fun _ hx => Slot.active_of_rebase hx)
    (fun _ hx ha => Slot.rebase_keys hx ha)
  have hpend : RowMapSound (pruneRowMap (pend .dayRoll { s with slots := s.slots.map Slot.rebase })) :=
    rowMapSound_dependsOn.keep (pend_only .dayRoll (pruneRowMap { s with slots := s.slots.map Slot.rebase })) hp
  exact rowMapSound_dependsOn.keep (.foldl (fun t i => forget i t) (fun t i => forget_only i t) (forcedByRoll s) _) hpend

theorem dueMove_cases {q : Params} {c : Clock} {x : Slot} {n : SlotState} (h : dueMove q c x = some n) :
    x.state.active = true ∧ n ≠ .vacant := by
  unfold dueMove at h
  split at h
  · split at h
    · rename_i hmove
      cases h
      exact ⟨hmove.1, stateFor_ne_vacant _ _ _ _⟩
    · cases h
  · cases h

/-- A move changes a slot's state and nothing else. -/
theorem Slot.advance_cases (q : Params) (c : Clock) (x : Slot) :
    x.advance q c = x ∨ x.state.active = true ∧ ∃ n, n ≠ .vacant ∧ x.advance q c = { x with state := n } := by
  unfold Slot.advance
  split
  · rename_i n hn
    obtain ⟨ha, hne⟩ := dueMove_cases hn
    exact .inr ⟨ha, n, hne, rfl⟩
  · exact .inl rfl

theorem Slot.fits_advance (q : Params) (c : Clock) {x : Slot} (h : x.fits = true) : (x.advance q c).fits = true := by
  obtain he | ⟨ha, n, hne, he⟩ := Slot.advance_cases q c x
  · rwa [he]
  · obtain ⟨-, -, hvacant⟩ | ⟨r, k, hr, hk, -, hkeys⟩ := Slot.fits_cases h
    · rw [hvacant] at ha
      cases ha
    · rw [he]
      exact Slot.fits_of_some (x := { x with state := n }) hr hk hne hkeys

theorem Slot.active_of_advance {q : Params} {c : Clock} {x : Slot} (h : (x.advance q c).state.active = true) :
    x.state.active = true := by
  obtain he | ⟨ha, -⟩ := Slot.advance_cases q c x
  · rwa [he] at h
  · exact ha

theorem Slot.advance_keys (q : Params) (c : Clock) (x : Slot) :
    (x.advance q c).ke = x.ke + 0 ∧ (x.advance q c).platform = x.platform := by
  obtain he | ⟨-, n, -, he⟩ := Slot.advance_cases q c x
  · rw [he]
    simp
  · rw [he]
    simp [Slot.ke, Slot.platform]

theorem RowMapSound.reevaluate {s : State} (h : RowMapSound s) : RowMapSound (reevaluate s) := by
  have hp := h.prune 0 (fun _ hx => Slot.fits_advance s.params s.clock hx) (fun _ hx => Slot.active_of_advance hx)
    (fun x _ _ => Slot.advance_keys s.params s.clock x)
  have hn : ∀ t : State, Only [.freeCount] t { t with freeCount := t.freeCount + 1 } := fun t => .of_overlay rfl
  unfold Machine.reevaluate
  split
  · dsimp only
    split
    · exact rowMapSound_dependsOn.keep (reportMoves_only _ _) hp
    · exact rowMapSound_dependsOn.keep ((hn _).trans (reportMoves_only _ _)) hp
  · exact h

theorem RowMapSound.advanceSlots {s : State} (h : RowMapSound s) (a : Advance) : RowMapSound (advanceSlots a s) := by
  have hroll : RowMapSound (if a.roll = true then Machine.dayRoll s else s) := by
    split
    · exact h.dayRoll
    · exact h
  exact rowMapSound_dependsOn.keep (runTimers_only _ _) hroll.reevaluate

/-! ## The Time Base's events -/

/-- What an invariant keeps through a time advance: what the blocks make of it. -/
structure KeepsTime (P : State → Prop) : Prop where
  slots : ∀ a s, P s → P (advanceSlots a s)
  notices : ∀ n s, P s → P (noticeMinutes n s).1

/-- What a time advance changes beside what the Slot Table and the Notice Unit make of it. -/
abbrev clockLeaves : List Leaf := [.clock, .att, .noted, .marks, .joinSeq, .freeCount, .refTime, .exec, .response, .count]

section

variable {P : State → Prop} {ds : List Leaf} (hP : DependsOn ds P) (h : KeepsTime P)
  (hds : ds.all (fun d => !clockLeaves.contains d) = true)

include hP h hds

theorem timeAdvance_keeps (a : Advance) (stateChanged : Bool) (was : State) {s : State} (hs : P s) :
    P (timeAdvance a stateChanged was s) := by
  have hset : P (setT a.new s) := hP.keep ((withClock_only _ s).mono (gs := clockLeaves)) hs hds
  have hslots := h.slots a _ hset
  unfold timeAdvance
  split
  · dsimp only
    refine hP.keep ((handGroups_only _ _).mono (gs := clockLeaves)) ?_ hds
    split
    · exact h.notices _ _ hslots
    · exact hslots
  split
  · exact hP.keep ((handMark_only _ s).mono (gs := clockLeaves)) hs hds
  · exact hs

theorem timeEvent_keeps (cause : TickCause) {s : State} (hs : P s) : P (timeEvent cause s) := by
  have hcount : P (countReference cause s) := by
    cases cause
    · exact hP.keep (fs := clockLeaves) (Only.mono (fs := [.refTime]) (.of_overlay rfl)) hs hds
    · exact hs
  unfold timeEvent tickEvent
  split
  · unfold applyClock
    dsimp only
    exact timeAdvance_keeps hP h hds _ _ _
      (hP.keep (((withClock_only _ _).trans (pendIf_only _ _ _)).mono (gs := clockLeaves)) hcount hds)
  · exact hcount

theorem setClockCommand_keeps (words : List Word) {s : State} (hs : P s) : P (setClockCommand words s) := by
  have hdone {u : State} (p : Primary) (q : Secondary) (results : List Word) (hu : P u) : P (complete p q results u) :=
    hP.keep ((complete_only p q results u).mono (gs := clockLeaves)) hu hds
  have hslew (d : Int) : P (setSlew d s) := hP.keep ((setSlew_only d s).mono (gs := clockLeaves)) hs hds
  have hleave (target : Nat) : P (leaveUnset target s) :=
    timeAdvance_keeps hP h hds _ _ _ (hP.keep
      ((((withClock_only _ s).trans (setSlew_only 0 _)).trans (pend_only _ _)).mono (gs := clockLeaves)) hs hds)
  have hstep (target : Nat) (roll : Bool) : P (stepClock target roll s) :=
    timeAdvance_keeps hP h hds _ _ _ (hP.keep
      ((((setSlew_only 0 s).trans (pend_only _ _)).trans (noteIf_only _ _ _)).mono (gs := clockLeaves)) hs hds)
  unfold setClockCommand
  dsimp only
  split
  · exact hdone _ _ _ hs
  split
  · exact hdone _ _ _ (hleave _)
  split
  · split
    · exact hdone _ _ _ (hslew 0)
    split
    · exact hdone _ _ _ hs
    split
    · exact hdone _ _ _ (hstep _ _)
    · exact hdone _ _ _ (hstep _ _)
  · exact hdone _ _ _ (hslew _)

theorem applyRoll_keeps (r : Nat) {s : State} (hs : P s) : P (applyRoll r s) := by
  unfold applyRoll
  split
  · exact hs
  split
  · exact hP.keep ((withClock_only _ s).mono (gs := clockLeaves)) hs hds
  · dsimp only
    exact timeAdvance_keeps hP h hds _ _ _
      (hP.keep (((withClock_only _ s).trans (pend_only _ _)).mono (gs := clockLeaves)) hs hds)

/-- Of a configuration applied, the source and the roll minute. -/
theorem applySourceAndRoll_keeps (src : ClockSource) (r : Nat) {s : State} (hs : P s)
    (hconf : ds.contains .configured = false) : P (applyRoll r (noteConfigured (applySource src s))) := by
  have hsource : P (applySource src s) := hP.keep ((applySource_only src s).mono (gs := clockLeaves)) hs hds
  refine applyRoll_keeps hP h hds r (hP.keep (noteConfigured_only _) hsource ?_)
  refine List.all_eq_true.2 fun d hd => ?_
  have hne : d ≠ .configured := by
    rintro rfl
    rw [List.contains_iff_mem.2 hd] at hconf
    cases hconf
  simpa using hne

end

/-! ## The step -/

theorem rowMapSound_keepsTime : KeepsTime RowMapSound where
  slots a _ h := h.advanceSlots a
  notices n s h := rowMapSound_dependsOn.keep (noticeMinutes_only n s) h

theorem rowMapSound_keepsAnswers : KeepsAnswers RowMapSound where
  config words s _ h :=
    have h₁ : RowMapSound (followMode (discardBoards (setParams (paramsOf words) (takeRoles (paramsOf words) s)))) :=
      rowMapSound_dependsOn.keep ((((takeRoles_only _ s).trans (setParams_only _ _)).trans (discardBoards_only _)).trans
        (followMode_only _)) h
    applySourceAndRoll_keeps rowMapSound_dependsOn rowMapSound_keepsTime rfl _ _ h₁ rfl
  stage i k w s h := rowMapSound_dependsOn.keep (stageWord_only i k w s) h
  load i faulted _ h := h.loadOutcome i faulted
  refresh s h := rowMapSound_dependsOn.keep (handMarks_only _ s) h
  fetch _ _ _ s h := rowMapSound_dependsOn.keep (deliverFetch_only _ _ _ s) h

/-- A commit keeps what the capture of its write and its handing over keep. -/
theorem finishCommit_keeps {P : State → Prop} {ds : List Leaf} (hP : DependsOn ds P) (err : Bool) {s : State}
    (hcommit : ∀ i loading s, P s → P (considerCommit i loading s)) (hs : P s)
    (hds : ds.all (fun d => !writeLeaves.contains d) = true) : P (finishCommit err s) := by
  obtain ⟨w, hw⟩ : ∃ w, w = finishWrite err s := ⟨_, rfl⟩
  have hwrite : P w := by
    rw [hw]
    exact hP.keep (finishWrite_only err s) hs hds
  obtain ⟨cls, hcls⟩ : ∃ cls, cls = Access.cls := ⟨_, rfl⟩
  rw [finishCommit, ← hw, ← hcls]
  split
  · split
    · unfold handCommit
      split
      · exact hcommit _ _ _ hwrite
      · split
        · exact hcommit _ _ _ hwrite
        · exact hwrite
      · exact hwrite
      · exact hwrite
    · exact hs
  · exact hs

theorem effect_keeps_rowMap {c : Instr} {s : State} (hc : concerns [.slotCore, .rowMap] c = true)
    (ho : occurs c s = true) (hs : RowMapSound s) : RowMapSound (effect c s) := by
  have htime (cause : TickCause) : RowMapSound (timeEvent cause s) :=
    timeEvent_keeps rowMapSound_dependsOn rowMapSound_keepsTime rfl cause hs
  cases c
  case ownReadComplete data err => exact finishOwnRead_keeps rowMapSound_dependsOn rowMapSound_keepsAnswers rfl data err hs
  case commit err => exact finishCommit_keeps rowMapSound_dependsOn err (fun i loading _ h => h.considerCommit i loading) hs rfl
  case internalReferenceSecond => exact htime _
  case masterPulse => exact htime _
  case footnoteExpiry => exact htime _
  case highlightExpiry => exact htime _
  case noticeExpiry => exact htime _
  case slewComplete => exact htime _
  case setClock err =>
    exact handTrigger_keeps rowMapSound_dependsOn (trigger_of_triggers ho)
      (fun words _ _ h => setClockCommand_keeps rowMapSound_dependsOn rowMapSound_keepsTime rfl words h) hs
  all_goals exact (Bool.false_ne_true hc).elim

theorem rowMapSound_afterReset (straps : BitVec 4) (ack busy : Bool) (n : Nat) (queue : List Instr) :
    RowMapSound (State.afterReset straps ack busy n queue) := by
  refine ⟨by simp [State.afterReset], fun x hx => ?_, List.nodup_nil, fun i => ?_, List.Pairwise.nil⟩
  · rw [List.eq_of_mem_replicate hx]
    rfl
  · have hat : slotAt (State.afterReset straps ack busy n queue) i = .reset := by
      simp only [slotAt, State.afterReset, List.getD_eq_getElem?_getD, List.getElem?_replicate]
      split <;> rfl
    rw [hat]
    simp [State.afterReset, Slot.reset, SlotState.active]

/-- Settles O57: a record is placed behind the keys that are less; the day roll shifts every key alike; a slot that is active no more
leaves. -/
theorem stepKeepsRowMapSound : Obligations.StepKeepsRowMapSound := fun _ _ hs h =>
  step_keeps rowMapSound_dependsOn rfl rowMapSound_afterReset
    (fun s _ hs => rowMapSound_dependsOn.keep (release_only s) hs)
    (fun s t _ ht => rowMapSound_dependsOn.keep (settle_only s t) ht)
    (fun _ _ _ hc ho hs => effect_keeps_rowMap hc ho hs) h hs

end Sys2Proof.Machine
end

section
/-! PROOFS. The cue queue stays within its bounds, and no cue and no footnote refers to a departure that is no more (sections 7.7,
8.1 and 8.2). -/

namespace Sys2Proof.Machine

set_option Elab.async false

/-! ## Queue and footnotes over the slots that they may refer to -/

/-- A record has a slot exactly when its kind is a slot kind, and refers to a slot of those given. -/
def CueFits (live : Nat → Prop) (c : Cue) : Prop := c.slot.isSome = c.kind.ofSlot ∧ ∀ i, c.slot = some i → live i

/-- At most 16 records, at most one of each slot kind for a slot, each of which fits. -/
def QueueFits (live : Nat → Prop) (q : List Cue) : Prop :=
  q.length ≤ 16 ∧ q.Pairwise (fun a b => sameCue a b = false) ∧ ∀ c ∈ q, CueFits live c

/-- 32 boards, whose footnotes refer to slots of those given. -/
def FootnotesFit (live : Nat → Prop) (l : List (Option Footnote)) : Prop := l.length = 32 ∧ ∀ n, some n ∈ l → live n.slot

/-- Cues and footnotes refer to no other slots than those given. -/
def CuesFit (live : Nat → Prop) (s : State) : Prop := QueueFits live s.cues.queue ∧ FootnotesFit live s.footnotes

/-- A slot has a departure on the wall. -/
def Live (s : State) (i : Nat) : Prop := (slotAt s i).state.active = true

theorem cuesSound_iff {s : State} : CuesSound s ↔ s.slots.length = 96 ∧ CuesFit (Live s) s := by
  unfold CuesSound CuesFit QueueFits FootnotesFit CueFits Live
  constructor
  · rintro ⟨hslots, hboards, hlen, hpair, hkind, hslot, hnote⟩
    exact ⟨hslots, ⟨hlen, hpair, fun c hc => ⟨hkind c hc, hslot c hc⟩⟩, hboards, hnote⟩
  · rintro ⟨hslots, ⟨hlen, hpair, hcue⟩, hboards, hnote⟩
    exact ⟨hslots, hboards, hlen, hpair, fun c hc => (hcue c hc).1, fun c hc => (hcue c hc).2, hnote⟩

theorem CueFits.mono {live live' : Nat → Prop} {c : Cue} (h : CueFits live c) (hsub : ∀ i, live i → live' i) : CueFits live' c :=
  h.imp_right fun h i hi => hsub i (h i hi)

theorem CueFits.congr {live : Nat → Prop} {c d : Cue} (h : CueFits live c) (hslot : d.slot = c.slot) (hkind : d.kind = c.kind) :
    CueFits live d := by
  unfold CueFits
  rwa [hslot, hkind]

theorem slotCue_fits {live : Nat → Prop} {i : Nat} (hi : live i) {kind : CueKind} (hkind : kind.ofSlot = true) (r : Record)
    (repeats : Nat) : CueFits live (slotCue kind i r repeats) :=
  ⟨hkind.symm, fun _ hj => Option.some.inj hj ▸ hi⟩

theorem phraseCue_fits (live : Nat → Prop) {kind : CueKind} (hkind : kind.ofSlot = false) (phrase repeats : Nat) :
    CueFits live (phraseCue kind phrase repeats) :=
  ⟨hkind.symm, nofun⟩

/-! ## The queue's operations -/

section

variable {live : Nat → Prop} {q : List Cue}

theorem QueueFits.mono {live' : Nat → Prop} (h : QueueFits live q) (hsub : ∀ i, live i → live' i) : QueueFits live' q :=
  h.imp_right (And.imp_right fun h c hc => (h c hc).mono hsub)

theorem QueueFits.filter (h : QueueFits live q) (p : Cue → Bool) : QueueFits live (q.filter p) := by
  obtain ⟨hlen, hpair, hcue⟩ := h
  exact ⟨(List.length_filter_le p q).trans hlen, hpair.filter p, fun c hc => hcue c (List.mem_of_mem_filter hc)⟩

theorem sameCue_congr {a a' b b' : Cue} (hs : a'.slot = a.slot) (hk : a'.kind = a.kind) (hs' : b'.slot = b.slot)
    (hk' : b'.kind = b.kind) : sameCue a' b' = sameCue a b := by
  unfold sameCue
  rw [hs, hk, hs', hk']

/-- A change of records that keeps their slots and kinds. -/
theorem QueueFits.map (h : QueueFits live q) {f : Cue → Cue} (hslot : ∀ c, (f c).slot = c.slot)
    (hkind : ∀ c, (f c).kind = c.kind) : QueueFits live (q.map f) := by
  obtain ⟨hlen, hpair, hcue⟩ := h
  refine ⟨by rwa [List.length_map], List.pairwise_map.2 (hpair.imp fun {a b} hab => ?_), fun d hd => ?_⟩
  · rwa [sameCue_congr (hslot a) (hkind a) (hslot b) (hkind b)]
  · obtain ⟨c, hc, rfl⟩ := List.mem_map.1 hd
    exact (hcue c hc).congr (hslot c) (hkind c)

/-- A record at the tail of a queue with room and none of its slot and kind. -/
theorem QueueFits.append (h : QueueFits live q) {c : Cue} (hc : CueFits live c) (hroom : q.length < 16)
    (hnew : ∀ e ∈ q, sameCue e c = false) : QueueFits live (q ++ [c]) := by
  obtain ⟨hlen, hpair, hcue⟩ := h
  refine ⟨by simpa using hroom, List.pairwise_append.2 ⟨hpair, List.pairwise_singleton _ _, ?_⟩, fun e he => ?_⟩
  · intro a ha b hb
    rw [List.mem_singleton.1 hb]
    exact hnew a ha
  · obtain he | he := List.mem_append.1 he
    · exact hcue e he
    · rwa [List.mem_singleton.1 he]

end

theorem victim_mem {u : CueUnit} {v : Cue} (h : victim u = some v) : v ∈ u.queue := by
  have hfold : ∀ (l : List Cue) (best : Option Cue),
      l.foldl (fun best c =>
        match best with
        | none => some c
        | some b =>
          if c.rank < b.rank then some c
          else if c.rank = b.rank ∧ ageOf u.next c.order < ageOf u.next b.order then some c
          else best) best = some v → best = some v ∨ v ∈ l := by
    intro l
    induction l with
    | nil => exact fun _ h => .inl h
    | cons c rest ih =>
      intro best h
      rw [List.foldl_cons] at h
      obtain h | h := ih _ h
      · split at h
        · exact .inr (Option.some.inj h ▸ List.mem_cons_self)
        split at h
        · exact .inr (Option.some.inj h ▸ List.mem_cons_self)
        split at h
        · exact .inr (Option.some.inj h ▸ List.mem_cons_self)
        · exact .inl h
      · exact .inr (List.mem_cons_of_mem c h)
  exact (hfold u.queue none h).resolve_left nofun

/-- A record placed by the table of R131 and R132. -/
theorem placeCue_fits {live : Nat → Prop} {u : CueUnit} {c : Cue} (h : QueueFits live u.queue) (hc : CueFits live c) :
    QueueFits live (u.placeCue c).1.queue := by
  have hother : ∀ {d : Cue}, u.queue.any (fun e => sameCue e c) = false → d.slot = c.slot → d.kind = c.kind →
      ∀ e ∈ u.queue, sameCue e d = false := by
    intro d hany hs hk e he
    rw [sameCue_congr rfl rfl hs hk]
    simpa using List.any_eq_false.1 hany e he
  obtain ⟨-, hp⟩ | ⟨hany, hroom, hp⟩ | ⟨hany, -, v, hv, -, hp⟩ | ⟨-, -, -, hp⟩ := CueUnit.placeCue_cases c u
  · rw [hp]
    show QueueFits live (u.replace c).queue
    rw [CueUnit.replace_queue]
    have hsame : ∀ e : Cue, sameCue e c = true → c.slot = e.slot ∧ c.kind = e.kind := by
      intro e he
      simp only [sameCue, Bool.and_eq_true, decide_eq_true_eq] at he
      exact ⟨he.1.2.symm, he.2.symm⟩
    refine h.map (fun e => ?_) fun e => ?_
    · split
      · exact (hsame e ‹_›).1
      · rfl
    · split
      · exact (hsame e ‹_›).2
      · rfl
  · rw [hp]
    exact h.append (hc.congr rfl rfl) hroom (hother hany rfl rfl)
  · rw [hp]
    have hlen : (u.queue.filter fun e => !decide (e.order = v.order)).length < u.queue.length :=
      List.length_filter_lt_length_iff_exists.2 ⟨v, victim_mem hv, by simp⟩
    have hmax := h.1
    show QueueFits live ((u.remove _).queue ++ [_])
    rw [CueUnit.remove_queue]
    exact (h.filter _).append (hc.congr rfl rfl) (by omega)
      fun e he => hother hany rfl rfl e (List.mem_of_mem_filter he)
  · rw [hp]
    exact h

/-! ## Cues and footnotes, operation by operation -/

theorem cuesFit_dependsOn (live : Nat → Prop) : DependsOn [.cueQueue, .footnotes] (CuesFit live) := by
  intro s t hd hs
  have hqueue : t.cues.queue = s.cues.queue := hd .cueQueue (by decide)
  have hnotes : t.footnotes = s.footnotes := hd .footnotes (by decide)
  unfold CuesFit
  rwa [hqueue, hnotes]

theorem CuesFit.mono {live live' : Nat → Prop} {s : State} (h : CuesFit live s) (hsub : ∀ i, live i → live' i) :
    CuesFit live' s :=
  ⟨h.1.mono hsub, h.2.imp_right fun h n hn => hsub _ (h n hn)⟩

section

variable {live : Nat → Prop} {s : State}

theorem CuesFit.withQueue (h : CuesFit live s) {q : List Cue} (hq : QueueFits live q) :
    CuesFit live { s with cues := { s.cues with queue := q } } :=
  ⟨hq, h.2⟩

theorem CuesFit.removeCues (h : CuesFit live s) (test : Cue → Bool) : CuesFit live (removeCues test s) := by
  refine ⟨?_, (removeCues_only test s).same .footnotes ▸ h.2⟩
  rw [removeCues_queue]
  exact h.1.filter _

theorem CuesFit.handCue (h : CuesFit live s) {c : Cue} (hc : CueFits live c) : CuesFit live (handCue c s).1 :=
  ⟨placeCue_fits h.1 hc, (handCue_only c s).same .footnotes ▸ h.2⟩

theorem CuesFit.makeCue (h : CuesFit live s) {c : Cue} (hc : CueFits live c) : CuesFit live (makeCue c s) := h.handCue hc

/-- A change of the footnotes that lets none refer to another slot. -/
theorem CuesFit.mapFootnotes (h : CuesFit live s) {f : Nat → Option Footnote → Option Footnote}
    (hf : ∀ p n r, f p n = some r → live r.slot ∨ ∃ r', n = some r' ∧ r'.slot = r.slot) : CuesFit live (mapFootnotes f s) := by
  obtain ⟨hqueue, hlen, hnotes⟩ := h
  refine ⟨hqueue, by simp [Machine.mapFootnotes, hlen], fun r hr => ?_⟩
  obtain ⟨⟨n, p⟩, hmem, hfn⟩ := List.mem_map.1 hr
  obtain hlive | ⟨r', rfl, hslot⟩ := hf _ _ _ hfn
  · exact hlive
  · rw [← hslot]
    exact hnotes r' (List.fst_mem_of_mem_zipIdx hmem)

/-- A slot forgotten is referred to no more (R126). -/
theorem CuesFit.forget (h : CuesFit live s) (i : Nat) : CuesFit (fun j => live j ∧ j ≠ i) (forget i s) := by
  obtain ⟨⟨hlen, hpair, hcue⟩, hboards, hnotes⟩ := h
  obtain ⟨msg, noted, hf⟩ := forget_frame i s
  rw [hf]
  refine ⟨⟨(List.length_filter_le _ _).trans hlen, hpair.filter _, fun c hc => ?_⟩, by simpa using hboards, fun n hn => ?_⟩
  · obtain ⟨hmem, hslot⟩ := List.mem_filter.1 hc
    obtain ⟨hkind, hlive⟩ := hcue c hmem
    refine ⟨hkind, fun j hj => ⟨hlive j hj, ?_⟩⟩
    rintro rfl
    simp [ofSlot, hj] at hslot
  · obtain ⟨n', hmem, hn'⟩ := List.mem_map.1 hn
    split at hn'
    · cases hn'
    · rename_i hrefers
      subst hn'
      exact ⟨hnotes n hmem, by simpa [refersTo] using hrefers⟩

theorem CuesFit.forgetAll (h : CuesFit live s) (l : List Nat) :
    CuesFit (fun j => live j ∧ j ∉ l) (l.foldl (fun t i => Machine.forget i t) s) := by
  induction l generalizing live s with
  | nil => exact h.mono fun j hj => ⟨hj, List.not_mem_nil⟩
  | cons i rest ih =>
    refine (ih (h.forget i)).mono fun j ⟨⟨hj, hne⟩, hrest⟩ => ⟨hj, ?_⟩
    rw [List.mem_cons, not_or]
    exact ⟨hne, hrest⟩

/-! ## The Service Change Logic -/

theorem CuesFit.redirect (h : CuesFit live s) (a q : Nat) {i : Nat} (hi : live i) : CuesFit live (redirect a q i s) := by
  refine h.mapFootnotes fun p n r hr => ?_
  split at hr
  · exact .inr ⟨r, hr, rfl⟩
  split at hr
  · split at hr
    · cases hr
    · exact .inr ⟨r, hr, rfl⟩
  split at hr
  · cases hr
    exact .inl hi
  · exact .inr ⟨r, hr, rfl⟩

theorem CuesFit.reportBoards (h : CuesFit live s) {i : Nat} (hi : live i) (old : Slot) (r : Record) :
    CuesFit live (reportBoards i old r s) := by
  unfold Machine.reportBoards
  split
  · have hr := h.redirect (oldPlatform old) r.platform hi
    dsimp only
    split
    · exact (cuesFit_dependsOn live).keep (changeHighlight_only i r _) hr
    · exact hr
  · exact h

theorem CuesFit.reportCancellation (h : CuesFit live s) {i : Nat} (hi : live i) (old : Slot) (r : Record) :
    CuesFit live (reportCancellation i old r s) := by
  unfold Machine.reportCancellation cancelCues reinstate
  split
  · split
    · dsimp only
      split
      · exact (h.removeCues _).makeCue (slotCue_fits hi rfl r _)
      · exact h.removeCues _
    split
    · exact h.removeCues _
    · exact h
  · exact h

theorem CuesFit.reportPlatformCue (h : CuesFit live s) {i : Nat} (hi : live i) (old : Slot) (r : Record) :
    CuesFit live (reportPlatformCue i old r s) := by
  unfold Machine.reportPlatformCue changeCue
  split
  · split
    · exact h.removeCues _
    split
    · exact h.removeCues _
    · exact h.makeCue ((slotCue_fits (kind := .platformChange) hi rfl r 0).congr rfl rfl)
  · exact h

theorem CuesFit.delayRule (h : CuesFit live s) {i : Nat} (hi : live i) (r : Record) : CuesFit live (delayRule i r s) := by
  unfold Machine.delayRule
  split
  · exact h
  split
  · exact h.makeCue ((slotCue_fits (kind := .delay) hi rfl r 0).congr rfl rfl)
  · exact h.removeCues _

theorem CuesFit.commitCourse (h : CuesFit live s) (i : Nat) : CuesFit live (commitCourse i s) := by
  unfold Machine.commitCourse
  split
  · exact h.removeCues _
  · exact h.removeCues _
  · exact h

theorem CuesFit.refreshCues (h : CuesFit live s) (i : Nat) (r : Record) : CuesFit live (refreshCues i r s) := by
  unfold Machine.refreshCues
  split
  · exact h.removeCues _
  · refine h.withQueue (h.1.map (fun c => ?_) fun c => ?_) <;> split <;> rfl

theorem CuesFit.announceFromRecord (h : CuesFit live s) (i : Nat) : CuesFit live (announceFromRecord i s) :=
  (cuesFit_dependsOn live).keep (announceFromRecord_only i s) h

theorem CuesFit.commitReport (h : CuesFit live s) {i : Nat} (hi : live i) (old : Slot) (r : Record) (quiet : Bool) :
    CuesFit live (commitReport i old r quiet s) := by
  unfold Machine.commitReport
  split
  · exact (h.removeCues _).announceFromRecord i
  · exact ((((((h.reportBoards hi old r).reportCancellation hi old r).reportPlatformCue hi old r).delayRule hi r).commitCourse i
      ).refreshCues i r).announceFromRecord i

/-- A time-driven move that leaves the slot on the wall. -/
theorem CuesFit.moveReport (h : CuesFit live s) {i : Nat} (hi : live i) (left : SlotState) {reached : SlotState}
    (hreached : reached ≠ .expired) : CuesFit live (moveReport i left reached s) := by
  unfold Machine.moveReport
  split
  · split
    · split
      · exact h.makeCue (slotCue_fits hi rfl _ _)
      · exact h
    · exact h
  · exact h.removeCues _
  · exact h.removeCues _
  · exact absurd rfl hreached
  · exact h

theorem moveReport_expired (i : Nat) (left : SlotState) (s : State) : moveReport i left .expired s = Machine.forget i s := by
  cases left <;> rfl

/-- A slot of these moves becomes EXPIRED. -/
def Expiring (moves : List (Nat × SlotState × SlotState)) (i : Nat) : Prop := ∃ m ∈ moves, m.1 = i ∧ m.2.2 = .expired

/-- The reports of moves: the slots that become EXPIRED are forgotten one after another. -/
theorem CuesFit.reportMoves {moves : List (Nat × SlotState × SlotState)} (h : CuesFit (fun i => live i ∨ Expiring moves i) s)
    (hlive : ∀ m ∈ moves, m.2.2 ≠ .expired → live m.1) : CuesFit live (reportMoves moves s) := by
  induction moves generalizing s with
  | nil => exact h.mono fun i hi => hi.resolve_right (by simp [Expiring])
  | cons m rest ih =>
    obtain ⟨i, left, reached⟩ := m
    refine ih (s := Machine.moveReport i left reached s) ?_ fun m hm => hlive m (List.mem_cons_of_mem _ hm)
    by_cases hreached : reached = .expired
    · subst hreached
      rw [moveReport_expired]
      refine (h.forget i).mono fun j ⟨hj, hne⟩ => hj.imp_right ?_
      rintro ⟨m, hm, hslot, hexp⟩
      obtain rfl | hm := List.mem_cons.1 hm
      · exact absurd hslot.symm hne
      · exact ⟨m, hm, hslot, hexp⟩
    · refine CuesFit.moveReport (h.mono fun j hj => hj.imp_right ?_)
        (.inl (hlive _ List.mem_cons_self hreached)) left hreached
      rintro ⟨m, hm, hslot, hexp⟩
      obtain rfl | hm := List.mem_cons.1 hm
      · exact absurd hexp hreached
      · exact ⟨m, hm, hslot, hexp⟩

end

/-! ## Records taken and slots vacated -/

theorem live_of_core {s t : State} (h : Same .slotCore s t) (i : Nat) : Live t i ↔ Live s i := by
  unfold Live
  rw [state_of_core (slotAt_of_core h i)]

theorem cuesSound_dependsOn : DependsOn [.slotCore, .cueQueue, .footnotes] CuesSound := by
  intro s t hd hs
  have hcore : Same .slotCore s t := hd .slotCore (by decide)
  obtain ⟨hlen, hfit⟩ := cuesSound_iff.1 hs
  exact cuesSound_iff.2 ⟨(length_of_core hcore).trans hlen,
    ((cuesFit_dependsOn _).mono rfl s t hd hfit).mono fun i hi => (live_of_core hcore i).2 hi⟩

/-- Operations that keep every slot's core keep the invariant where what they leave refers to live slots. -/
theorem CuesSound.of_fit {s t : State} (h : CuesSound s) (hcore : Same .slotCore s t) (hfit : CuesFit (Live s) t) : CuesSound t :=
  cuesSound_iff.2 ⟨(length_of_core hcore).trans h.1, hfit.mono fun i hi => (live_of_core hcore i).2 hi⟩

/-- No staging copy lies beyond the table. -/
theorem slotAt_of_le {s : State} {i : Nat} (h : s.slots.length ≤ i) : slotAt s i = .reset := by
  simp [slotAt, List.getElem?_eq_none h]

theorem lt_of_commitValid {s : State} {i : Nat} (h : commitValid (stagedWord (slotAt s i).staging 5) = true) :
    i < s.slots.length := by
  by_contra hi
  rw [slotAt_of_le (not_lt.1 hi)] at h
  exact absurd h (by decide)

theorem active_of_ne {x : SlotState} (hv : x ≠ .vacant) (he : x ≠ .expired) : x.active = true := by
  cases x with
  | vacant => exact absurd rfl hv
  | expired => exact absurd rfl he
  | _ => rfl

theorem CuesSound.takeRecord {s : State} (h : CuesSound s) {i : Nat} (hi : i < s.slots.length) (quiet : Bool) :
    CuesSound (takeRecord i quiet s) := by
  obtain ⟨hlen, hfit⟩ := cuesSound_iff.1 h
  have hplaced := recordPlaced_only i s
  have hat : ∀ j, slotAt (recordPlaced i s) j = slotAt (setSlot i ((slotAt s i).take s.params s.clock) s) j := fun j => by
    simp [recordPlaced, slotAt]
  have hother : ∀ j, j ≠ i → (Live (recordPlaced i s) j ↔ Live s j) := fun j hj => by
    unfold Live
    rw [hat, slotAt_setSlot_other s _ hj]
  have hself : (slotAt (recordPlaced i s) i).state ≠ .vacant := by
    rw [hat, slotAt_setSlot_same s _ hi]
    exact stateFor_ne_vacant _ _ _ _
  have hreport : CuesFit (fun j => Live s j ∨ j = i)
      (commitReport i (slotAt s i) (recordOf (slotAt s i).staging) quiet (recordPlaced i s)) :=
    CuesFit.commitReport ((cuesFit_dependsOn _).keep hplaced (hfit.mono fun j hj => .inl hj)) (.inr rfl) _ _ quiet
  have hcore : Same .slotCore (recordPlaced i s)
      (commitReport i (slotAt s i) (recordOf (slotAt s i).staging) quiet (recordPlaced i s)) :=
    (commitReport_only i _ _ quiet _).same .slotCore
  have happlied : CuesFit (Live (recordPlaced i s)) (applyRecord i quiet s) := by
    show CuesFit _ (forgetExpired i (commitReport i _ _ quiet (recordPlaced i s)))
    unfold forgetExpired
    rw [state_of_core (slotAt_of_core hcore i)]
    split
    · exact (hreport.forget i).mono fun j ⟨hj, hne⟩ => (hother j hne).2 (hj.resolve_right hne)
    · rename_i hstate
      refine hreport.mono fun j hj => ?_
      by_cases hji : j = i
      · subst hji
        exact active_of_ne hself hstate
      · exact (hother j hji).2 (hj.resolve_right hji)
  have happlied : CuesSound (applyRecord i quiet s) :=
    cuesSound_iff.2 ⟨(length_of_core ((applyRecord_placed i quiet s).same .slotCore)).trans (by simp [recordPlaced, hlen]),
      happlied.mono fun j hj => (live_of_core ((applyRecord_placed i quiet s).same .slotCore) j).2 hj⟩
  exact cuesSound_dependsOn.keep (handMarks_only _ _) happlied

theorem CuesSound.vacateSlot {s : State} (h : CuesSound s) (i : Nat) (result : LastResult) (generation : Nat) :
    CuesSound (vacateSlot i result generation s) := by
  obtain ⟨hlen, hfit⟩ := cuesSound_iff.1 h
  have hempty : Only (allOfSlots ++ [.rowMap]) s (slotEmptied i result generation s) :=
    (modSlot_only i _ s).trans (unplace_only i _)
  have hforget : CuesFit (fun j => Live s j ∧ j ≠ i) (forget i (slotEmptied i result generation s)) :=
    ((cuesFit_dependsOn _).keep hempty hfit).forget i
  have hcore : Same .slotCore (slotEmptied i result generation s) (forget i (slotEmptied i result generation s)) :=
    (forget_only i _).same .slotCore
  have hother : ∀ j, j ≠ i → Live s j → Live (slotEmptied i result generation s) j := fun j hj hs => by
    have hat : slotAt (slotEmptied i result generation s) j = slotAt s j := slotAt_setSlot_other s _ hj
    unfold Live
    rwa [hat]
  have hsound : CuesSound (forget i (slotEmptied i result generation s)) :=
    cuesSound_iff.2 ⟨(length_of_core hcore).trans ((List.length_set ..).trans hlen),
      hforget.mono fun j ⟨hj, hne⟩ => (live_of_core hcore j).2 (hother j hne hj)⟩
  exact cuesSound_dependsOn.keep (handMarks_only _ _) hsound

theorem CuesSound.considerCommit {s : State} (h : CuesSound s) (i : Nat) (loading : Bool) :
    CuesSound (considerCommit i loading s) := by
  unfold Machine.considerCommit
  dsimp only
  split
  · rename_i hvalid
    split
    · exact cuesSound_dependsOn.keep (modSlot_share i _ s) h
    · exact h.takeRecord (lt_of_commitValid hvalid) _
  · exact h.vacateSlot i _ _

theorem CuesSound.loadOutcome {s : State} (h : CuesSound s) (i : Nat) (faulted : Bool) : CuesSound (loadOutcome i faulted s) := by
  unfold Machine.loadOutcome
  dsimp only
  split
  · exact h.vacateSlot i _ _
  split
  · rename_i hvalid
    split
    · exact h.vacateSlot i _ _
    · exact h.takeRecord (lt_of_commitValid hvalid) true
  · exact h.vacateSlot i _ _

/-! ## The day roll and the second event -/

theorem mem_slots_of_live {s : State} {i : Nat} (h : Live s i) : s.slots[i]? = some (slotAt s i) := by
  unfold Live slotAt at *
  rw [List.getD_eq_getElem?_getD] at *
  cases hi : s.slots[i]? with
  | none =>
    rw [hi] at h
    cases h
  | some x => rfl

theorem slotAt_mapSlots {s : State} {i : Nat} (f : Slot → Slot) (h : Live s i) :
    slotAt { s with slots := s.slots.map f } i = f (slotAt s i) := by
  have hi := mem_slots_of_live h
  show (s.slots.map f).getD i .reset = _
  rw [List.getD_eq_getElem?_getD, List.getElem?_map, hi]
  rfl

theorem CuesSound.dayRoll {s : State} (h : CuesSound s) : CuesSound (dayRoll s) := by
  obtain ⟨hlen, hfit⟩ := cuesSound_iff.1 h
  have hrolled : CuesFit (Live s) (pruneRowMap (pend .dayRoll { s with slots := s.slots.map Slot.rebase })) := hfit
  have hcore := (Only.foldl (fun t i => forget i t) (fun t i => forget_only i t) (forcedByRoll s)
    (pruneRowMap (pend .dayRoll { s with slots := s.slots.map Slot.rebase }))).same .slotCore
  refine cuesSound_iff.2 ⟨(length_of_core hcore).trans (by simp [pruneRowMap, pend, hlen]),
    (hrolled.forgetAll (forcedByRoll s)).mono fun j ⟨hj, hstays⟩ => (live_of_core hcore j).2 ?_⟩
  have hkeys : ¬ ((slotAt s j).keys.map (·.offset)) = some (-1) := fun hk =>
    hstays (List.mem_filterMap.2 ⟨(slotAt s j, j), List.mk_mem_zipIdx_iff_getElem?.2 (mem_slots_of_live hj),
      if_pos ⟨hj, hk⟩⟩)
  have hat := slotAt_mapSlots Slot.rebase hj
  show (slotAt { s with slots := s.slots.map Slot.rebase } j).state.active = true
  rw [hat]
  unfold Slot.rebase
  split
  · rename_i k hk
    rw [if_pos (show (slotAt s j).state.active = true from hj), if_neg (by simpa [hk] using hkeys)]
    exact hj
  · exact hj

theorem mem_dueMoves {s : State} {m : Nat × SlotState × SlotState} (h : m ∈ dueMoves s) :
    dueMove s.params s.clock (slotAt s m.1) = some m.2.2 := by
  obtain ⟨⟨x, i⟩, hmem, hm⟩ := List.mem_filterMap.1 h
  have hx : slotAt s i = x := by
    rw [slotAt, List.getD_eq_getElem?_getD, List.mk_mem_zipIdx_iff_getElem?.1 hmem]
    rfl
  obtain ⟨n, hn, rfl⟩ := Option.map_eq_some_iff.1 hm
  rw [hx]
  exact hn

theorem CuesSound.reevaluate {s : State} (h : CuesSound s) : CuesSound (reevaluate s) := by
  obtain ⟨hlen, hfit⟩ := cuesSound_iff.1 h
  obtain ⟨t, ht⟩ : ∃ t, t = pruneRowMap { s with slots := s.slots.map (Slot.advance s.params s.clock) } := ⟨_, rfl⟩
  have hlen' : t.slots.length = 96 := by simp [ht, pruneRowMap, hlen]
  have hadvance : ∀ i, Live s i → slotAt t i = (slotAt s i).advance s.params s.clock := fun i hi =>
    ht ▸ slotAt_mapSlots (Slot.advance s.params s.clock) hi
  have hmoved : ∀ m ∈ dueMoves s, m.2.2 ≠ .expired → Live t m.1 := by
    intro m hm hne
    have hdue := mem_dueMoves hm
    obtain ⟨hactive, hvacant⟩ := dueMove_cases hdue
    unfold Live
    rw [hadvance m.1 hactive, Slot.advance, hdue]
    exact active_of_ne hvacant hne
  have hstays : ∀ i, Live s i → Live t i ∨ Expiring (dueMoves s) i := by
    intro i hi
    cases hdue : dueMove s.params s.clock (slotAt s i) with
    | none =>
      refine .inl ?_
      unfold Live
      rw [hadvance i hi, Slot.advance, hdue]
      exact hi
    | some n =>
      have hmem : (i, (slotAt s i).state, n) ∈ dueMoves s :=
        List.mem_filterMap.2 ⟨(slotAt s i, i), List.mk_mem_zipIdx_iff_getElem?.2 (mem_slots_of_live hi), by simp [hdue]⟩
      by_cases hn : n = .expired
      · exact .inr ⟨_, hmem, rfl, hn⟩
      · exact .inl (hmoved _ hmem hn)
  have hfit' : CuesFit (fun i => Live t i ∨ Expiring (dueMoves s) i) t := by
    have hmono := hfit.mono hstays
    rw [ht] at hmono ⊢
    exact hmono
  unfold Machine.reevaluate
  split
  · dsimp only
    rw [← ht]
    split
    · have hcore := (reportMoves_only (dueMoves s) t).same .slotCore
      exact cuesSound_iff.2 ⟨(length_of_core hcore).trans hlen', (hfit'.reportMoves hmoved).mono fun j hj => (live_of_core hcore j).2 hj⟩
    · have hperm := arrange_perm (Config.openOrder s.freeCount) (dueMoves s)
      have hcore := (reportMoves_only (arrange (Config.openOrder s.freeCount) (dueMoves s))
        { t with freeCount := t.freeCount + 1 }).same .slotCore
      have hfit'' : CuesFit (Live t)
          (reportMoves (arrange (Config.openOrder s.freeCount) (dueMoves s)) { t with freeCount := t.freeCount + 1 }) := by
        refine CuesFit.reportMoves (CuesFit.mono (s := { t with freeCount := t.freeCount + 1 }) hfit' fun j hj => hj.imp_right ?_)
          fun m hm => hmoved m (hperm.mem_iff.1 hm)
        rintro ⟨m, hm, he⟩
        exact ⟨m, hperm.mem_iff.2 hm, he⟩
      exact cuesSound_iff.2 ⟨(length_of_core hcore).trans hlen', hfit''.mono fun j hj => (live_of_core hcore j).2 hj⟩
  · exact h

theorem CuesSound.runTimers {s : State} (h : CuesSound s) (passed : Nat) : CuesSound (runTimers passed s) := by
  refine h.of_fit ((runTimers_only passed s).same .slotCore) ?_
  have hfit : CuesFit (Live s) (mapFootnotes (fun _ n => n.bind fun r => (countDown passed r.left).map fun l =>
      { r with left := l }) s) := by
    refine (cuesSound_iff.1 h).2.mapFootnotes fun p n r hr => .inr ?_
    cases n with
    | none => cases hr
    | some n =>
      obtain ⟨l, -, rfl⟩ := Option.map_eq_some_iff.1 hr
      exact ⟨n, rfl, rfl⟩
  exact hfit

theorem CuesSound.advanceSlots {s : State} (h : CuesSound s) (a : Advance) : CuesSound (advanceSlots a s) := by
  have hroll : CuesSound (if a.roll = true then Machine.dayRoll s else s) := by
    split
    · exact h.dayRoll
    · exact h
  exact hroll.reevaluate.runTimers _

/-! ## The links, the commands and the Notice Unit -/

section

variable {s : State} (h : CuesSound s)

include h

theorem CuesSound.removeCues (test : Cue → Bool) : CuesSound (removeCues test s) :=
  h.of_fit ((removeCues_only test s).same .slotCore) ((cuesSound_iff.1 h).2.removeCues test)

theorem CuesSound.handCue {c : Cue} (hc : CueFits (Live s) c) : CuesSound (handCue c s).1 :=
  h.of_fit ((handCue_only c s).same .slotCore) ((cuesSound_iff.1 h).2.handCue hc)

theorem CuesSound.modRecord (order : BitVec 32) {f : Cue → Cue} (hslot : ∀ c, (f c).slot = c.slot)
    (hkind : ∀ c, (f c).kind = c.kind) : CuesSound (modRecord order f s) := by
  have hfit := (cuesSound_iff.1 h).2
  refine h.of_fit ((modRecord_only order f s).same .slotCore) (hfit.withQueue (hfit.1.map (fun c => ?_) fun c => ?_))
  · split
    · exact hslot c
    · rfl
  · split
    · exact hkind c
    · rfl

theorem CuesSound.dropRecord (order : BitVec 32) : CuesSound (dropRecord order s) :=
  have hfit := (cuesSound_iff.1 h).2
  h.of_fit ((dropRecord_only order s).same .slotCore) (hfit.withQueue (hfit.1.filter _))

theorem CuesSound.countPresentation (m : Message) : CuesSound (countPresentation m s) := by
  unfold Machine.countPresentation
  split
  · split
    · split
      · exact h.dropRecord _
      · exact h.modRecord _ (fun _ => rfl) fun _ => rfl
    · exact h
  · exact h

theorem CuesSound.countAbort (m : Message) : CuesSound (countAbort m s) := by
  unfold Machine.countAbort
  split
  · split
    · split
      · exact h.modRecord _ (fun _ => rfl) fun _ => rfl
      · exact cuesSound_dependsOn.keep (pend_only _ _) (h.dropRecord _)
    · exact h
  · exact h

theorem CuesSound.present (m : Message) : CuesSound (present m s) :=
  cuesSound_dependsOn.keep
    (((reportPresented_only m _).trans (clearMessage_only _)).trans (linkAfterPresentation_only m _)) (h.countPresentation m)

theorem CuesSound.setBackFrom (i : Nat) : CuesSound (setBackFrom i s) := by
  unfold Machine.setBackFrom
  dsimp only
  split
  · exact cuesSound_dependsOn.keep (compared_only none (modSlot_share i _ _)) (h.removeCues _)
  · have hfit := (cuesSound_iff.1 h).2
    exact h.of_fit rfl (hfit.withQueue (hfit.1.map (fun c => by split <;> rfl) fun c => by split <;> rfl))

theorem CuesSound.reportAborted (m : Message) : CuesSound (reportAborted m s) := by
  unfold Machine.reportAborted
  split
  · split
    · exact h.setBackFrom _
    · exact h
  · exact h

theorem CuesSound.abort (m : Message) : CuesSound (abort m s) :=
  cuesSound_dependsOn.keep ((clearMessage_only _).trans (linkAfterAbort_only _)) ((h.countAbort m).reportAborted m)

theorem CuesSound.completeByte (m : Message) : CuesSound (completeByte m s) := by
  unfold Machine.completeByte
  split
  · exact h.present m
  · exact cuesSound_dependsOn.keep ((withMsg_only _ s).trans (beginByte_only _)) h

theorem CuesSound.tryComplete : CuesSound (tryComplete s) := by
  unfold Machine.tryComplete
  split
  · split
    · exact h.completeByte _
    · exact h
  · exact h

theorem CuesSound.ackEvent (e : AckEvent) : CuesSound (ackEvent e s) := by
  unfold Machine.ackEvent
  split
  · rename_i level _
    have hset : CuesSound (setAck level s) := cuesSound_dependsOn.keep (setAck_only level s) h
    unfold seeAck
    split
    · split
      · exact CuesSound.tryComplete (cuesSound_dependsOn.keep (withPulse_only _ _ (setAck level s)) hset)
      · exact hset
    · exact hset
  · exact h

theorem CuesSound.busyFall : CuesSound (busyFall s) := by
  have hset : CuesSound (setBusy false s) := cuesSound_dependsOn.keep (setBusy_only false s) h
  unfold Machine.busyFall
  dsimp only
  split
  · exact hset.tryComplete
  · exact cuesSound_dependsOn.keep (enterGap_only _) hset
  · exact cuesSound_dependsOn.keep ((enterGap_only _).trans (pend_only _ _)) hset
  · exact hset

theorem CuesSound.pulseEnd : CuesSound (pulseEnd s) := by
  unfold Machine.pulseEnd
  split
  · exact CuesSound.tryComplete (cuesSound_dependsOn.keep (withPulse_only _ _ s) h)
  · exact h

theorem CuesSound.spacingPassed : CuesSound (spacingPassed s) := by
  unfold Machine.spacingPassed
  split
  · exact h.completeByte _
  · exact h

theorem CuesSound.byteLimitPassed : CuesSound (byteLimitPassed s) := by
  unfold Machine.byteLimitPassed
  split
  · exact h.abort _
  · exact h

theorem CuesSound.issueCueCommand (words : List Word) : CuesSound (issueCueCommand words s) := by
  unfold Machine.issueCueCommand
  split
  · exact cuesSound_dependsOn.keep (complete_only _ _ _ s) h
  · rename_i c hc
    have hfits : CueFits (Live s) c := by
      unfold issuedCue at hc
      dsimp only at hc
      split at hc
      · rename_i kind hkind
        split at hc
        · cases hc
        · cases hc
          refine phraseCue_fits _ ?_ _ _
          unfold issueKind at hkind
          split at hkind <;> cases hkind <;> rfl
      · cases hc
    unfold answerIssue
    split <;> exact cuesSound_dependsOn.keep (complete_only _ _ _ _) (h.handCue hfits)

theorem CuesSound.clearCuesCommand (words : List Word) : CuesSound (clearCuesCommand words s) :=
  cuesSound_dependsOn.keep (complete_only _ _ _ _) (h.removeCues _)

theorem CuesSound.finishFetch (e : FetchEnd) : CuesSound (finishFetch e s) := by
  unfold Machine.finishFetch
  split
  · exact h
  · rename_i r rest _
    dsimp only
    have hended : CuesSound (pend .noticeDone (modEntry r.entry (Entry.finish r ((s.notices.fetch.map (·.buf)).getD []) e)
        (fetchEnded rest s))) :=
      cuesSound_dependsOn.keep ((modEntry_only _ _ _).trans (pend_only _ _))
        (cuesSound_dependsOn.keep (t := fetchEnded rest s) (fs := [.requests, .fetch]) (.of_overlay rfl) h)
    unfold fetchEnded at hended
    generalize pend .noticeDone _ = u at hended
    split
    · have hcued : CuesSound (if r.phrase = 0 then u else makeCue (phraseCue .notice r.phrase 0) u) := by
        split
        · exact hended
        · exact hended.handCue (phraseCue_fits _ rfl _ _)
      split
      · exact cuesSound_dependsOn.keep (rotate_only _) hcued
      · split
        · exact cuesSound_dependsOn.keep (reshow_only _ _) hcued
        · exact hcued
    · exact hended

end

/-! ## The fetch, by how it ends -/

section

variable {P : State → Prop} {ds : List Leaf} (hP : DependsOn ds P) (hfinish : ∀ e s, P s → P (finishFetch e s))
  (hds : ds.all (fun d => ! [Leaf.fetch, .reads, .requests, .orphan].contains d) = true)

include hP hfinish hds

theorem beginFetches_keeps (n : Nat) {s : State} (hs : P s) : P (beginFetches n s) := by
  induction n generalizing s with
  | zero => exact hs
  | succ n ih =>
    have hfetch (f : Option Fetch) : P { s with notices := { s.notices with fetch := f } } :=
      hP.keep ((withFetch_only f s).mono (gs := [.fetch, .reads, .requests, .orphan])) hs hds
    unfold beginFetches
    split
    · exact hs
    split
    · exact hs
    · dsimp only
      split
      · exact ih (hfinish _ _ (hfetch _))
      · exact hP.keep ((requestFetch_only _ _).mono (gs := [.fetch, .reads, .requests, .orphan])) (hfetch _) hds

theorem endFetch_keeps (e : FetchEnd) {s : State} (hs : P s) : P (endFetch e s) :=
  beginFetches_keeps hP hfinish hds _ (hfinish e s hs)

theorem continueFetch_keeps (f : Fetch) {s : State} (hs : P s) : P (continueFetch f s) := by
  have hfetch : P { s with notices := { s.notices with fetch := some f } } :=
    hP.keep ((withFetch_only _ s).mono (gs := [.fetch, .reads, .requests, .orphan])) hs hds
  unfold continueFetch
  dsimp only
  split
  · exact endFetch_keeps hP hfinish hds _ hfetch
  · exact hP.keep ((requestFetch_only _ _).mono (gs := [.fetch, .reads, .requests, .orphan])) hfetch hds

theorem endFragment_keeps (f : Fetch) {s : State} (hs : P s) : P (endFragment f s) := by
  have hend (e : FetchEnd) : P (endFetch e { s with notices := { s.notices with fetch := some f } }) :=
    endFetch_keeps hP hfinish hds e
      (hP.keep ((withFetch_only _ s).mono (gs := [.fetch, .reads, .requests, .orphan])) hs hds)
  unfold endFragment
  dsimp only
  split
  · exact hend _
  split
  · exact hend _
  split
  · exact hend _
  split
  · exact hend _
  split
  · exact hend _
  · exact continueFetch_keeps hP hfinish hds _ hs

theorem fetchAnswer_keeps (w : Word) (f : Fetch) {s : State} (hs : P s) : P (fetchAnswer w f s) := by
  unfold fetchAnswer
  split
  · exact continueFetch_keeps hP hfinish hds _ hs
  · exact continueFetch_keeps hP hfinish hds _ hs
  · unfold beginFragment
    dsimp only
    split
    · exact endFragment_keeps hP hfinish hds _ hs
    · exact continueFetch_keeps hP hfinish hds _ hs
  · unfold takeText
    dsimp only
    split
    · exact endFragment_keeps hP hfinish hds _ hs
    · exact continueFetch_keeps hP hfinish hds _ hs

theorem deliverFetch_keeps (addr : Nat) (data : Word) (err : Bool) {s : State} (hs : P s) : P (deliverFetch addr data err s) := by
  have horphan : Only [.orphan] s { s with notices := { s.notices with orphan := false } } := .of_overlay rfl
  unfold deliverFetch
  split
  · exact beginFetches_keeps hP hfinish hds _
      (hP.keep (horphan.mono (gs := [.fetch, .reads, .requests, .orphan])) hs hds)
  split
  · exact hs
  split
  · exact endFetch_keeps hP hfinish hds _ hs
  · exact fetchAnswer_keeps hP hfinish hds _ _ hs

theorem queueFetch_keeps (i : Nat) (p : Post) {s : State} (hs : P s) : P (queueFetch i p s) := by
  have hqueue (q : List FetchReq) : Only [.requests] s { s with notices := { s.notices with queue := q } } := .of_overlay rfl
  exact beginFetches_keeps hP hfinish hds _
    (hP.keep ((hqueue _).mono (gs := [.fetch, .reads, .requests, .orphan])) hs hds)

end

/-! ## The step -/

theorem CuesSound.postNotice {s : State} (h : CuesSound s) (words : List Word) : CuesSound (postNotice words s) := by
  have hpost (i : Nat) (p : Post) (f : Entry → Entry) (results : List Word) :
      CuesSound (completeDone results (queueFetch i p (changeEntry i f s))) :=
    cuesSound_dependsOn.keep (complete_only _ _ _ _) (queueFetch_keeps cuesSound_dependsOn (fun e _ h => h.finishFetch e) rfl i p
      (cuesSound_dependsOn.keep (changeEntry_only i f s) h))
  unfold Machine.postNotice
  dsimp only
  split
  · exact cuesSound_dependsOn.keep (complete_only _ _ _ s) h
  split
  · exact hpost _ _ _ _
  split
  · exact hpost _ _ _ _
  · exact cuesSound_dependsOn.keep (complete_only _ _ _ s) h

theorem cuesSound_keepsTime : KeepsTime CuesSound where
  slots a _ h := h.advanceSlots a
  notices n s h := cuesSound_dependsOn.keep (noticeMinutes_only n s) h

theorem CuesSound.discardBoards {s : State} (h : CuesSound s) : CuesSound (discardBoards s) := by
  refine h.of_fit rfl ((cuesSound_iff.1 h).2.mapFootnotes fun p n r hr => .inr ?_)
  split at hr
  · cases hr
  · exact ⟨r, hr, rfl⟩

theorem cuesSound_keepsAnswers : KeepsAnswers CuesSound where
  config words s _ h :=
    have h₁ : CuesSound (setParams (paramsOf words) (takeRoles (paramsOf words) s)) :=
      cuesSound_dependsOn.keep ((takeRoles_only _ s).trans (setParams_only _ _)) h
    have h₂ : CuesSound (followMode (discardBoards (setParams (paramsOf words) (takeRoles (paramsOf words) s)))) :=
      cuesSound_dependsOn.keep (followMode_only _) h₁.discardBoards
    applySourceAndRoll_keeps cuesSound_dependsOn cuesSound_keepsTime rfl _ _ h₂ rfl
  stage i k w s h := cuesSound_dependsOn.keep (stageWord_only i k w s) h
  load i faulted _ h := h.loadOutcome i faulted
  refresh s h := cuesSound_dependsOn.keep (handMarks_only _ s) h
  fetch addr data err _ h := deliverFetch_keeps cuesSound_dependsOn (fun e _ h => h.finishFetch e) rfl addr data err h

theorem effect_keeps_cues {c : Instr} {s : State} (hc : concerns [.slotCore, .cueQueue, .footnotes] c = true)
    (ho : occurs c s = true) (hs : CuesSound s) : CuesSound (effect c s) := by
  have htime (cause : TickCause) : CuesSound (timeEvent cause s) :=
    timeEvent_keeps cuesSound_dependsOn cuesSound_keepsTime rfl cause hs
  cases c
  case ownReadComplete data err => exact finishOwnRead_keeps cuesSound_dependsOn cuesSound_keepsAnswers rfl data err hs
  case commit err => exact finishCommit_keeps cuesSound_dependsOn err (fun i loading _ h => h.considerCommit i loading) hs rfl
  case internalReferenceSecond => exact htime _
  case masterPulse => exact htime _
  case footnoteExpiry => exact htime _
  case highlightExpiry => exact htime _
  case noticeExpiry => exact htime _
  case slewComplete => exact htime _
  case setClock err =>
    exact handTrigger_keeps cuesSound_dependsOn (trigger_of_triggers ho)
      (fun words _ _ h => setClockCommand_keeps cuesSound_dependsOn cuesSound_keepsTime rfl words h) hs
  case postNotice err =>
    exact handTrigger_keeps cuesSound_dependsOn (trigger_of_triggers ho) (fun words _ _ h => h.postNotice words) hs
  case issueCue err =>
    exact handTrigger_keeps cuesSound_dependsOn (trigger_of_triggers ho) (fun words _ _ h => h.issueCueCommand words) hs
  case clearCues err =>
    exact handTrigger_keeps cuesSound_dependsOn (trigger_of_triggers ho) (fun words _ _ h => h.clearCuesCommand words) hs
  case acknowledgeInput e => exact hs.ackEvent e
  case strobePulseEnd => exact hs.pulseEnd
  case timedSpacingExpiry => exact hs.spacingPassed
  case busyFalls => exact hs.busyFall
  case byteLimitExpiry => exact hs.byteLimitPassed
  case notBeforePasses order => exact hs.modRecord order (fun _ => rfl) fun _ => rfl
  all_goals exact (Bool.false_ne_true hc).elim

theorem cuesSound_afterReset (straps : BitVec 4) (ack busy : Bool) (n : Nat) (queue : List Instr) :
    CuesSound (State.afterReset straps ack busy n queue) := by
  simp [CuesSound, State.afterReset, CueUnit.reset]

/-- Settles O58: every maker's cue is of a slot on the wall or of none, and a slot that leaves the wall is forgotten. -/
theorem stepKeepsCuesSound : Obligations.StepKeepsCuesSound := fun _ _ hs h =>
  step_keeps cuesSound_dependsOn rfl cuesSound_afterReset
    (fun s _ hs => cuesSound_dependsOn.keep (release_only s) hs)
    (fun s t _ ht => cuesSound_dependsOn.keep (settle_only s t) ht)
    (fun _ _ _ hc ho hs => effect_keeps_cues hc ho hs) h hs

end Sys2Proof.Machine
end

section
/-! PROOFS. The cue link's state against its message, its timers and its mode (sections 8.3 and 8.6). -/

namespace Sys2Proof.Machine

set_option Elab.async false

/-! ## The parts of the invariant -/

/-- The link's state against the message in flight and the gap timer, whatever the mode. -/
structure LinkForm (s : State) : Prop where
  sending : s.cues.link = .sending ↔ s.cues.msg.isSome = true
  gap : s.cues.link = .gap ↔ s.cues.gapTimer.isSome = true
  strobe : s.cues.strobe = true → s.cues.msg.isSome = true
  index : ∀ m, s.cues.msg = some m → m.index < m.bytes.length

/-- The link's state against the mode in force (R143). -/
structure ModeFits (s : State) : Prop where
  idle : s.params.linkMode = .off → s.cues.link = .off ∨ s.cues.link = .sending
  off : s.cues.link = .off → s.params.linkMode = .off

/-- What holds of the link within an event, before the busy timer follows its condition. -/
def LinkFits (s : State) : Prop := LinkForm s ∧ ModeFits s

theorem linkSound_iff {s : State} :
    LinkSound s ↔ LinkFits s ∧ (s.cues.busyTimer.isSome = true → s.cues.link = .speaking ∨ s.cues.link = .ready) := by
  constructor
  · rintro ⟨hsending, hgap, hbusy, hidle, hoff, hstrobe, hindex⟩
    exact ⟨⟨⟨hsending, hgap, hstrobe, hindex⟩, ⟨hidle, hoff⟩⟩, hbusy⟩
  · rintro ⟨⟨⟨hsending, hgap, hstrobe, hindex⟩, ⟨hidle, hoff⟩⟩, hbusy⟩
    exact ⟨hsending, hgap, hbusy, hidle, hoff, hstrobe, hindex⟩

/-- The leaves that the invariant reads. -/
abbrev linkLeaves : List Leaf := [.link, .msgCore, .gapTimer, .busyTimer, .strobe, .params]

theorem linkForm_dependsOn : DependsOn [.link, .msgCore, .gapTimer, .strobe] LinkForm := by
  intro s t hd hs
  have hlink : t.cues.link = s.cues.link := hd .link (by decide)
  have hmsg : t.cues.msg.map Message.core = s.cues.msg.map Message.core := hd .msgCore (by decide)
  have hgap : t.cues.gapTimer = s.cues.gapTimer := hd .gapTimer (by decide)
  have hstrobe : t.cues.strobe = s.cues.strobe := hd .strobe (by decide)
  have hsome : t.cues.msg.isSome = s.cues.msg.isSome := by
    have h := congrArg Option.isSome hmsg
    rwa [Option.isSome_map, Option.isSome_map] at h
  obtain ⟨hsending, htimer, hgiven, hindex⟩ := hs
  refine ⟨by rwa [hlink, hsome], by rwa [hlink, hgap], by rwa [hstrobe, hsome], fun m hm => ?_⟩
  rw [hm, Option.map_some] at hmsg
  obtain ⟨m', hm', hcore⟩ := Option.map_eq_some_iff.1 hmsg.symm
  have hi : m'.index = m.index := (congrArg Message.index hcore : m'.core.index = m.core.index)
  have hb : m'.bytes = m.bytes := (congrArg Message.bytes hcore : m'.core.bytes = m.core.bytes)
  have hless := hindex m' hm'
  rwa [hi, hb] at hless

theorem linkFits_dependsOn : DependsOn [.link, .msgCore, .gapTimer, .strobe, .params] LinkFits := by
  intro s t hd hs
  obtain ⟨hform, hidle, hoff⟩ := hs
  have hlink : t.cues.link = s.cues.link := hd .link (by decide)
  have hparams : t.params = s.params := hd .params (by decide)
  exact ⟨linkForm_dependsOn.mono rfl s t hd hform, by rwa [hparams, hlink],
    by rwa [hparams, hlink]⟩

theorem linkSound_dependsOn : DependsOn linkLeaves LinkSound := by
  intro s t hd hs
  obtain ⟨hfits, hbusy⟩ := linkSound_iff.1 hs
  have hlink : t.cues.link = s.cues.link := hd .link (by decide)
  have htimer : t.cues.busyTimer = s.cues.busyTimer := hd .busyTimer (by decide)
  exact linkSound_iff.2 ⟨linkFits_dependsOn.mono rfl s t hd hfits, by rwa [hlink, htimer]⟩

/-! ## The link with no message in flight -/

/-- No message is in flight, and no strobe is given. -/
def Unsent (s : State) : Prop := s.cues.msg = none ∧ s.cues.strobe = false

theorem LinkForm.unsent {s : State} (h : LinkForm s) (hlink : s.cues.link ≠ .sending) : Unsent s := by
  have hmsg : ¬ s.cues.msg.isSome = true := fun hm => hlink (h.sending.2 hm)
  exact ⟨by simpa using hmsg, by simpa using fun hs => hmsg (h.strobe hs)⟩

theorem unsent_clearMessage (s : State) : Unsent (clearMessage s) := ⟨rfl, rfl⟩

/-- A link that sends nothing, in a state that fits its timer and its mode. -/
theorem Unsent.linkFits {s : State} (h : Unsent s) (hlink : s.cues.link ≠ .sending)
    (hgap : s.cues.link = .gap ↔ s.cues.gapTimer.isSome = true) (hmode : s.params.linkMode = .off ↔ s.cues.link = .off) :
    LinkFits s := by
  obtain ⟨hmsg, hstrobe⟩ := h
  exact ⟨⟨by simp [hmsg, hlink], hgap, by simp [hstrobe], by simp [hmsg]⟩, fun h => .inl (hmode.1 h), hmode.2⟩

theorem Unsent.enterGap {s : State} (h : Unsent s) (hmode : s.params.linkMode ≠ .off) : LinkFits (enterGap s) := by
  unfold Machine.enterGap
  split
  · exact Unsent.linkFits (s := { s with cues := { s.cues with link := .ready, gapTimer := none } }) h nofun
      (by simp) (by simpa using hmode)
  · exact Unsent.linkFits (s := { s with cues := { s.cues with link := .gap, gapTimer := some s.params.gap } }) h nofun
      (by simp) (by simpa using hmode)

theorem Unsent.enterOff {s : State} (h : Unsent s) (hmode : s.params.linkMode = .off) : LinkFits (enterOff s) :=
  Unsent.linkFits (s := Machine.enterOff s) h nofun (by simp [Machine.enterOff]) (by simpa [Machine.enterOff] using hmode)

/-! ## Messages and bytes -/

section

variable {s : State} (h : LinkFits s)

include h

/-- A message in flight goes on: its bytes and the byte being sent change, and the strobe. -/
theorem LinkFits.goesOn {m : Message} (hm : s.cues.msg = some m) (m' : Message) (hindex : m'.index < m'.bytes.length)
    (strobe : Bool) : LinkFits { s with cues := { s.cues with msg := some m', strobe := strobe } } := by
  obtain ⟨⟨hsending, hgap, -, -⟩, hidle, hoff⟩ := h
  refine ⟨⟨?_, hgap, fun _ => rfl, ?_⟩, hidle, hoff⟩
  · rw [hm] at hsending
    exact hsending
  · rintro m'' ⟨⟩
    exact hindex

theorem LinkFits.beginByte : LinkFits (beginByte s) := by
  unfold Machine.beginByte
  split
  · rename_i m hm
    exact linkFits_dependsOn.keep (fs := [.dataOut]) (.of_overlay rfl)
      (h.goesOn hm { m with ack := .none, pulseOver := false } (h.1.index m hm) true)
  · exact h

/-- With a message in flight no gap timer runs. -/
theorem LinkFits.gapTimer_of_msg {m : Message} (hm : s.cues.msg = some m) : s.cues.gapTimer = none := by
  obtain ⟨⟨hsending, hgap, -, -⟩, -⟩ := h
  have hlink : s.cues.link = .sending := hsending.2 (by rw [hm]; rfl)
  simpa [hlink] using hgap

/-- A message presented leaves the link by the mode in force and the busy input (R143, R146, R147). -/
theorem LinkFits.present {m : Message} (hm : s.cues.msg = some m) : LinkFits (present m s) := by
  have hcount := (countPresentation_only m s).trans (reportPresented_only m _)
  obtain ⟨u, hu⟩ : ∃ u, u = reportPresented m (countPresentation m s) := ⟨_, rfl⟩
  rw [← hu] at hcount
  have hgap : u.cues.gapTimer = none := Eq.trans (hcount.same .gapTimer) (h.gapTimer_of_msg hm)
  unfold Machine.present
  rw [← hu]
  unfold linkAfterPresentation
  split
  · exact (unsent_clearMessage u).enterOff ‹_›
  · rename_i hmode
    split
    · exact (unsent_clearMessage u).enterGap hmode
    split
    · exact Unsent.linkFits (s := { clearMessage u with cues := { (clearMessage u).cues with link := .speaking } })
        (unsent_clearMessage u) nofun (by simpa [clearMessage] using hgap) (by simpa using hmode)
    · exact (unsent_clearMessage u).enterGap hmode

theorem LinkFits.completeByte {m : Message} (hm : s.cues.msg = some m) : LinkFits (completeByte m s) := by
  unfold Machine.completeByte
  split
  · exact h.present hm
  · rename_i hlast
    have hnext : m.index + 1 < m.bytes.length := by
      simp only [Message.lastByte, decide_eq_true_eq] at hlast
      omega
    exact (h.goesOn hm { m with index := m.index + 1 } hnext s.cues.strobe).beginByte

theorem LinkFits.tryComplete : LinkFits (tryComplete s) := by
  unfold Machine.tryComplete
  split
  · split
    · exact h.completeByte ‹_›
    · exact h
  · exact h

theorem LinkFits.mode_ne_off (hoff : s.cues.link ≠ .off) (hsending : s.cues.link ≠ .sending) : s.params.linkMode ≠ .off :=
  fun hmode => (h.2.idle hmode).elim hoff hsending

theorem LinkFits.ackEvent (e : AckEvent) : LinkFits (ackEvent e s) := by
  unfold Machine.ackEvent
  split
  · rename_i level _
    have hset : LinkFits (setAck level s) := linkFits_dependsOn.keep (setAck_only level s) h
    unfold seeAck
    split
    · rename_i m hm
      split
      · exact (hset.goesOn hm { m with ack := ackPhase e m.ack } (hset.1.index m hm) _).tryComplete
      · exact hset
    · exact hset
  · exact h

theorem LinkFits.busyFall : LinkFits (busyFall s) := by
  have hset : LinkFits (setBusy false s) := linkFits_dependsOn.keep (setBusy_only false s) h
  unfold Machine.busyFall
  dsimp only
  split
  · exact hset.tryComplete
  · rename_i hlink
    exact (hset.1.unsent (by simp [hlink])).enterGap (hset.mode_ne_off (by simp [hlink]) (by simp [hlink]))
  · rename_i hlink
    exact linkFits_dependsOn.keep (pend_only _ _)
      ((hset.1.unsent (by simp [hlink])).enterGap (hset.mode_ne_off (by simp [hlink]) (by simp [hlink])))
  · exact hset

theorem LinkFits.pulseEnd : LinkFits (pulseEnd s) := by
  unfold Machine.pulseEnd
  split
  · rename_i m hm
    exact (h.goesOn hm { m with pulseOver := true } (h.1.index m hm) false).tryComplete
  · exact h

theorem LinkFits.spacingPassed : LinkFits (spacingPassed s) := by
  unfold Machine.spacingPassed
  split
  · exact h.completeByte ‹_›
  · exact h

theorem LinkFits.byteLimitPassed : LinkFits (byteLimitPassed s) := by
  unfold Machine.byteLimitPassed
  split
  · rename_i m _
    unfold abort linkAfterAbort
    split
    · exact (unsent_clearMessage _).enterOff ‹_›
    · exact (unsent_clearMessage _).enterGap ‹_›
  · exact h

theorem LinkFits.gapPassed (hgap : s.cues.gapTimer.isSome = true) : LinkFits (gapPassed s) := by
  have hlink := h.1.gap.2 hgap
  exact Unsent.linkFits (s := Machine.gapPassed s) (h.1.unsent (by simp [hlink])) nofun (by simp [Machine.gapPassed])
    (by simpa [Machine.gapPassed] using h.mode_ne_off (by simp [hlink]) (by simp [hlink]))

/-- The busy timer runs only in SPEAKING and READY. -/
theorem LinkFits.stall (hlink : s.cues.link = .speaking ∨ s.cues.link = .ready) : LinkFits (stall s) := by
  have hsending : s.cues.link ≠ .sending := by obtain hl | hl := hlink <;> simp [hl]
  have hoff : s.cues.link ≠ .off := by obtain hl | hl := hlink <;> simp [hl]
  have hgap : s.cues.gapTimer = none := by
    have hne : s.cues.link ≠ .gap := by obtain hl | hl := hlink <;> simp [hl]
    simpa [hne] using h.1.gap
  exact Unsent.linkFits (s := Machine.stall s) (h.1.unsent hsending) nofun
    (by simpa [Machine.stall, pend] using hgap) (by simpa [Machine.stall, pend] using h.mode_ne_off hoff hsending)

end

theorem beginMessage_fits (c : Cue) (s : State) : LinkFits (beginMessage c s) := by
  have hbytes : 0 < (messageBytes c).length := by simp [messageBytes]
  have hbegun : LinkFits { s with cues := { s.cues with msg := some (messageOf s c), link := .sending, gapTimer := none } } := by
    refine ⟨⟨by simp, by simp, fun _ => rfl, ?_⟩, fun _ => .inr rfl, by simp⟩
    rintro m ⟨⟩
    exact hbytes
  exact hbegun.beginByte

theorem LinkFits.beginNext {s : State} (h : LinkFits s) : LinkFits (beginNext s) := by
  unfold Machine.beginNext
  split
  · exact beginMessage_fits _ s
  · exact h

/-! ## A new mode -/

/-- The link follows whatever mode has come into force (R143). -/
theorem LinkForm.followMode {s : State} (h : LinkForm s) : LinkFits (followMode s) := by
  unfold Machine.followMode
  split
  · rename_i hmode hmsg
    exact Unsent.enterOff ⟨hmsg, by simpa [hmsg] using h.strobe⟩ hmode
  · rename_i m hmode hmsg
    have hlink : s.cues.link = .sending := h.sending.2 (by rw [hmsg]; rfl)
    exact ⟨h, fun _ => .inr hlink, by simp [hlink]⟩
  · rename_i hlink hidle hsent
    have hmode : s.params.linkMode ≠ .off := fun hmode => by
      cases hmsg : s.cues.msg with
      | none => exact hidle hmode hmsg
      | some m => exact hsent m hmode hmsg
    have hgap : s.cues.gapTimer = none := by simpa [hlink] using h.gap
    exact Unsent.linkFits (s := { s with cues := { s.cues with link := .ready } }) (h.unsent (by simp [hlink])) nofun
      (by simpa using hgap) (by simpa using hmode)
  · rename_i hmode hlink
    exact (h.unsent (by simp [hlink])).enterGap (by simp [hmode])
  · rename_i hmode hlink
    exact (h.unsent (by simp [hlink])).enterGap (by simp [hmode])
  · rename_i hidle hsent hoff _ _
    have hlink : s.cues.link ≠ .off := hoff
    refine ⟨h, fun hmode => ?_, fun hl => absurd hl hlink⟩
    cases hmsg : s.cues.msg with
    | none => exact (hidle hmode hmsg).elim
    | some m => exact (hsent m hmode hmsg).elim

/-! ## The step -/

theorem linkFits_keepsAnswers : KeepsAnswers LinkFits where
  config words s _ h :=
    have h₁ : LinkForm (discardBoards (setParams (paramsOf words) (takeRoles (paramsOf words) s))) :=
      linkForm_dependsOn.keep (((takeRoles_only _ s).trans (setParams_only _ _)).trans (discardBoards_only _)) h.1
    linkFits_dependsOn.keep (((applySource_only _ _).trans (noteConfigured_only _)).trans (applyRoll_only _ _)) h₁.followMode
  stage i k w s h := linkFits_dependsOn.keep (stageWord_only i k w s) h
  load i faulted s h := linkFits_dependsOn.keep (loadOutcome_only i faulted s) h
  refresh s h := linkFits_dependsOn.keep (handMarks_only _ s) h
  fetch addr data err s h := linkFits_dependsOn.keep (deliverFetch_only addr data err s) h

theorem effect_keeps_link {c : Instr} {s : State} (hc : concerns linkLeaves c = true) (ho : occurs c s = true)
    (hs : LinkSound s) : LinkFits (effect c s) := by
  obtain ⟨hfits, hbusy⟩ := linkSound_iff.1 hs
  cases c
  case ownReadComplete data err => exact finishOwnRead_keeps linkFits_dependsOn linkFits_keepsAnswers rfl data err hfits
  case messageBegins => exact hfits.beginNext
  case acknowledgeInput e => exact hfits.ackEvent e
  case strobePulseEnd => exact hfits.pulseEnd
  case timedSpacingExpiry => exact hfits.spacingPassed
  case busyFalls => exact hfits.busyFall
  case byteLimitExpiry => exact hfits.byteLimitPassed
  case gapTimerExpiry => exact hfits.gapPassed ho
  case busyTimerExpiry => exact hfits.stall (hbusy ho)
  all_goals exact (Bool.false_ne_true hc).elim

theorem busyTimed_link {s : State} (h : busyTimed s = true) : s.cues.link = .speaking ∨ s.cues.link = .ready := by
  unfold busyTimed at h
  split at h
  · exact .inl ‹_›
  · exact .inr ‹_›
  · cases h

/-- At the end of an event the busy timer runs where its condition holds (R148). -/
theorem settle_keeps_link {s t : State} (h : LinkFits t) : LinkSound (settle s t) := by
  have hfits : LinkFits (settle s t) := linkFits_dependsOn.keep (settle_only s t) h
  refine linkSound_iff.2 ⟨hfits, fun hbusy => ?_⟩
  have htimer : (settle s t).cues.busyTimer = if busyTimed t then t.cues.busyTimer.or (some t.params.busyLimit) else none := rfl
  rw [htimer] at hbusy
  split at hbusy
  · exact busyTimed_link ‹_›
  · cases hbusy

theorem linkSound_afterReset (straps : BitVec 4) (ack busy : Bool) (n : Nat) (queue : List Instr) :
    LinkSound (State.afterReset straps ack busy n queue) := by
  simp [LinkSound, State.afterReset, CueUnit.reset, Params.reset]

/-- Settles O59: a message, its bytes and the gap come and go with the link's state; the busy timer follows its condition at the end
of the event. -/
theorem stepKeepsLinkSound : Obligations.StepKeepsLinkSound := fun _ _ hs h =>
  step_keeps_within linkSound_dependsOn linkFits_dependsOn.mono rfl (fun _ h => (linkSound_iff.1 h).1) linkSound_afterReset
    (fun s _ hs => linkFits_dependsOn.keep (release_only s) (linkSound_iff.1 hs).1)
    (fun _ _ _ ht => settle_keeps_link ht)
    (fun _ _ _ hc ho hs => effect_keeps_link hc ho hs) h hs

end Sys2Proof.Machine
end

section
/-! PROOFS. The notice table, the fetch queue, the texts and the rotation (chapter 9). -/

namespace Sys2Proof.Machine

set_option Elab.async false

/-! ## The parts of the invariant -/

/-- A fetch collects at most 240 bytes, all of them where a fragment had more. -/
def FetchText (f : Fetch) : Prop := f.buf.length + f.left ≤ 240 ∧ (f.more = true → f.buf.length + f.left = 240)

/-- The table with its texts, and the fetch in progress. -/
def TableText (s : State) : Prop := NoticeTableSound s ∧ NoticeTextSound s

theorem noticesSound_iff {s : State} : NoticesSound s ↔ TableText s ∧ RotationSound s := by
  unfold NoticesSound TableText
  tauto

theorem noticeTextSound_iff {s : State} :
    NoticeTextSound s ↔ (∀ e ∈ s.notices.entries, e.state = .active → Within 1 e.text.length 240) ∧
      ∀ f, s.notices.fetch = some f → FetchText f := by
  unfold NoticeTextSound FetchText
  constructor
  · rintro ⟨htext, hbuf, hmore⟩
    exact ⟨htext, fun f hf => ⟨hbuf f hf, hmore f hf⟩⟩
  · rintro ⟨htext, hfetch⟩
    exact ⟨htext, fun f hf => (hfetch f hf).1, fun f hf => (hfetch f hf).2⟩

theorem tableText_dependsOn : DependsOn [.entries, .requests, .fetch] TableText := by
  intro s t hd hs
  have hentries : t.notices.entries = s.notices.entries := hd .entries (by decide)
  have hqueue : t.notices.queue = s.notices.queue := hd .requests (by decide)
  have hfetch : t.notices.fetch = s.notices.fetch := hd .fetch (by decide)
  unfold TableText NoticeTableSound NoticeTextSound entryAt at *
  rwa [hentries, hqueue, hfetch]

theorem rotationSound_dependsOn : DependsOn [.entries, .shown, .dwellTimer] RotationSound := by
  intro s t hd hs
  have hentries : t.notices.entries = s.notices.entries := hd .entries (by decide)
  have hshown : t.notices.shown = s.notices.shown := hd .shown (by decide)
  have htimer : t.notices.dwellTimer = s.notices.dwellTimer := hd .dwellTimer (by decide)
  unfold RotationSound entryAt at *
  rwa [hentries, hshown, htimer]

/-- The leaves that the invariant reads. -/
abbrev noticeLeaves : List Leaf := [.entries, .requests, .fetch, .shown, .dwellTimer]

theorem noticesSound_dependsOn : DependsOn noticeLeaves NoticesSound := by
  intro s t hd hs
  obtain ⟨htable, hrotation⟩ := noticesSound_iff.1 hs
  exact noticesSound_iff.2 ⟨tableText_dependsOn.mono rfl s t hd htable, rotationSound_dependsOn.mono rfl s t hd hrotation⟩

/-! ## The rotation -/

theorem isActive_iff {s : State} {i : Nat} : isActive s i = true ↔ (entryAt s i).state = .active := by simp [isActive]

theorem nextShown_active {s : State} {i : Nat} (h : nextShown s = some i) : i < 8 ∧ (entryAt s i).state = .active := by
  unfold nextShown at h
  rw [Option.or_eq_some_iff] at h
  obtain h | ⟨-, h⟩ := h
  · have hmem := List.mem_of_find?_eq_some h
    have hp := List.find?_some h
    rw [Bool.and_eq_true] at hp
    exact ⟨List.mem_range.1 hmem, isActive_iff.1 hp.2⟩
  · exact ⟨List.mem_range.1 (List.mem_of_find?_eq_some h), isActive_iff.1 (by simpa using List.find?_some h)⟩

theorem nextShown_none {s : State} (h : nextShown s = none) : ∀ i < 8, (entryAt s i).state ≠ .active := by
  unfold nextShown at h
  rw [Option.or_eq_none_iff] at h
  intro i hi hactive
  exact List.find?_eq_none.1 h.2 i (List.mem_range.2 hi) (isActive_iff.2 hactive)

/-- An entry shown that is ACTIVE. -/
theorem showEntry_sound {s : State} {i : Nat} (hi : i < 8) (h : (entryAt s i).state = .active) :
    RotationSound (showEntry (some i) s) :=
  ⟨fun _ hj => Option.some.inj hj ▸ ⟨hi, h⟩, nofun, rfl⟩

/-- An advance selects an ACTIVE entry, or none where no entry is ACTIVE. -/
theorem advanceRotation_sound (s : State) : RotationSound (advanceRotation s) := by
  unfold advanceRotation
  cases h : nextShown s with
  | none => exact ⟨nofun, fun _ => nextShown_none h, rfl⟩
  | some i => exact showEntry_sound (nextShown_active h).1 (nextShown_active h).2

theorem rotate_sound (s : State) : RotationSound (rotate s) :=
  rotationSound_dependsOn.keep (handMark_only _ _) (advanceRotation_sound s)

theorem reshow_sound {s : State} {i : Nat} (hi : i < 8) (h : (entryAt s i).state = .active) : RotationSound (reshow i s) :=
  rotationSound_dependsOn.keep (handMark_only _ _) (showEntry_sound hi h)

theorem NoticesSound.rotate {s : State} (h : TableText s) : NoticesSound (rotate s) :=
  noticesSound_iff.2 ⟨tableText_dependsOn.keep (rotate_only s) h, rotate_sound s⟩

/-! ## One entry changed -/

section

variable {s : State} {i : Nat} (hi : i < 8)

include hi

/-- An entry changed, with its text, its id and its request. -/
theorem TableText.modEntry (h : TableText s) (f : Entry → Entry)
    (htext : (f (entryAt s i)).state = .active → Within 1 (f (entryAt s i)).text.length 240)
    (hid : (f (entryAt s i)).state ≠ .empty → ∀ j < 8, j ≠ i → (entryAt s j).state ≠ .empty →
      (entryAt s j).id ≠ (f (entryAt s i)).id)
    (hrequest : (∃ r ∈ s.notices.queue, r.entry = i) → (f (entryAt s i)).state = .fetching ∨
      (f (entryAt s i)).state = .active ∧ (f (entryAt s i)).replacing = true) : TableText (modEntry i f s) := by
  obtain ⟨⟨hlen, hids, hroom, hnodup, hqueue⟩, htexts⟩ := h
  obtain ⟨htexts, hfetch⟩ := noticeTextSound_iff.1 htexts
  have hsame := entryAt_modEntry_same s f (i := i) (by omega)
  have hother : ∀ j, j ≠ i → entryAt (Machine.modEntry i f s) j = entryAt s j := fun j hj => entryAt_modEntry_other s f hj
  refine ⟨⟨by simpa using hlen, fun a ha b hb hane hbne hab => ?_, hroom, hnodup, fun r hr => ?_⟩,
    noticeTextSound_iff.2 ⟨fun e he hactive => ?_, hfetch⟩⟩
  · by_cases hai : a = i
    · by_cases hbi : b = i
      · rw [hai, hbi]
      · subst hai
        rw [hsame] at hane hab
        rw [hother b hbi] at hbne hab
        exact absurd hab.symm (hid hane b hb hbi hbne)
    · by_cases hbi : b = i
      · subst hbi
        rw [hsame] at hbne hab
        rw [hother a hai] at hane hab
        exact absurd hab (hid hbne a ha hai hane)
      · rw [hother a hai, hother b hbi] at hab
        rw [hother a hai] at hane
        rw [hother b hbi] at hbne
        exact hids a ha b hb hane hbne hab
  · obtain ⟨hlt, hstate⟩ := hqueue r hr
    refine ⟨hlt, ?_⟩
    by_cases hri : r.entry = i
    · rw [hri, hsame]
      exact hrequest ⟨r, hr, hri⟩
    · rwa [hother r.entry hri]
  · obtain hold | rfl := List.mem_or_eq_of_mem_set he
    · exact htexts e hold hactive
    · exact htext hactive

/-- Of the ids it is enough that an entry that is not EMPTY keeps its own. -/
theorem TableText.id_of_kept (h : TableText s) {e : Entry} (he : e.state ≠ .empty → (entryAt s i).state ≠ .empty)
    (hsame : e.id = (entryAt s i).id) :
    e.state ≠ .empty → ∀ j < 8, j ≠ i → (entryAt s j).state ≠ .empty → (entryAt s j).id ≠ e.id := by
  intro hne j hj hji hjne hid
  obtain ⟨⟨-, hids, -⟩, -⟩ := h
  exact hji (hids j hj i hi hjne (he hne) (hid.trans hsame))

/-- The rotation stays where an entry is ACTIVE exactly if it was. -/
theorem RotationSound.modEntry (h : RotationSound s) (hlen : s.notices.entries.length = 8) (f : Entry → Entry)
    (hf : (f (entryAt s i)).state = .active ↔ (entryAt s i).state = .active) : RotationSound (modEntry i f s) := by
  obtain ⟨hshown, hnone, htimer⟩ := h
  have hactive : ∀ j, (entryAt (Machine.modEntry i f s) j).state = .active ↔ (entryAt s j).state = .active := by
    intro j
    by_cases hji : j = i
    · subst hji
      rw [entryAt_modEntry_same s f (by omega)]
      exact hf
    · rw [entryAt_modEntry_other s f hji]
  exact ⟨fun j hj => ⟨(hshown j hj).1, (hactive j).2 (hshown j hj).2⟩,
    fun hs j hj => (hactive j).not.2 (hnone hs j hj), htimer⟩

end

/-! ## The end of a fetch (R160) -/

theorem Entry.finish_id (r : FetchReq) (text : List Byte) (e : FetchEnd) (x : Entry) : (x.finish r text e).id = x.id := by
  unfold Entry.finish
  split <;> rfl

theorem Entry.finish_success {r : FetchReq} {text : List Byte} {e : FetchEnd} {x : Entry} (h : e.success = true) :
    (x.finish r text e).state = .active ∧ (x.finish r text e).text = text := by
  simp [Entry.finish, h]

/-- A failure leaves the entry ACTIVE with its text, or EMPTY. -/
theorem Entry.finish_failure {r : FetchReq} {text : List Byte} {e : FetchEnd} {x : Entry} (h : e.success = false) :
    ((x.finish r text e).state = .active ↔ x.state = .active) ∧ (x.finish r text e).text = x.text := by
  simp [Entry.finish, h]

/-- An entry whose fetch ends was not EMPTY. -/
theorem state_ne_empty_of_request {s : State} (h : NoticeTableSound s) {r : FetchReq} (hr : r ∈ s.notices.queue) :
    r.entry < 8 ∧ (entryAt s r.entry).state ≠ .empty := by
  obtain ⟨-, -, -, -, hqueue⟩ := h
  obtain ⟨hlt, hstate⟩ := hqueue r hr
  refine ⟨hlt, ?_⟩
  obtain hf | ⟨ha, -⟩ := hstate
  · simp [hf]
  · simp [ha]

/-- The queue's head and the fetch gone. -/
theorem TableText.fetchEnded {s : State} (h : TableText s) {r : FetchReq} {rest : List FetchReq}
    (hq : s.notices.queue = r :: rest) : TableText (fetchEnded rest s) := by
  obtain ⟨⟨hlen, hids, hroom, hnodup, hqueue⟩, htexts⟩ := h
  obtain ⟨htexts, -⟩ := noticeTextSound_iff.1 htexts
  rw [hq, List.length_cons] at hroom
  rw [hq, List.map_cons, List.nodup_cons] at hnodup
  exact ⟨⟨hlen, hids, by show rest.length ≤ 2; omega, hnodup.2, fun r' hr => hqueue r' (hq ▸ List.mem_cons_of_mem r hr)⟩,
    noticeTextSound_iff.2 ⟨htexts, nofun⟩⟩

/-- The text that the fetch in progress has collected. -/
def fetchedText (s : State) : List Byte := (s.notices.fetch.map (·.buf)).getD []

/-- The head request's entry finished, its request and the fetch gone (the table of R160). -/
def entryFinished (r : FetchReq) (rest : List FetchReq) (e : FetchEnd) (s : State) : State :=
  modEntry r.entry (Entry.finish r (fetchedText s) e) (fetchEnded rest s)

/-- The cue of a notice with a phrase (R141). -/
def noticeCued (r : FetchReq) (s : State) : State := if r.phrase = 0 then s else makeCue (phraseCue .notice r.phrase 0) s

/-- The rotation after a success (R163): it shows an entry where it showed none, and anew the one whose text was replaced. -/
def showFetched (i : Nat) (s : State) : State :=
  match s.notices.shown with
  | none => rotate s
  | some j => if j = i then reshow j s else s

/-- How a fetch ends: the entry, NOTICE_DONE, and of a success the cue and the rotation (R160). -/
theorem finishFetch_eq {s : State} {r : FetchReq} {rest : List FetchReq} (h : s.notices.queue = r :: rest) (e : FetchEnd) :
    finishFetch e s =
      if e.success then showFetched r.entry (noticeCued r (pend .noticeDone (entryFinished r rest e s)))
      else pend .noticeDone (entryFinished r rest e s) := by
  unfold finishFetch
  rw [h]
  rfl

theorem noticeCued_only (r : FetchReq) (s : State) : Only cueLeaves s (noticeCued r s) :=
  .ite (.refl _ s) (makeCue_only _ s)

theorem showFetched_only (i : Nat) (s : State) : Only rotationLeaves s (showFetched i s) := by
  unfold showFetched
  split
  · exact rotate_only s
  · exact .ite (reshow_only _ s) (.refl _ s)

/-- The rotation after a success shows an ACTIVE entry. -/
theorem showFetched_sound {s : State} {i : Nat} (hshown : ∀ j, s.notices.shown = some j → j < 8 ∧ (entryAt s j).state = .active)
    (htimer : s.notices.dwellTimer.isSome = s.notices.shown.isSome) : RotationSound (showFetched i s) := by
  unfold showFetched
  split
  · exact rotate_sound s
  · rename_i j hj
    obtain ⟨hlt, hactive⟩ := hshown j hj
    split
    · exact reshow_sound hlt hactive
    · exact ⟨hshown, fun h => (by rw [hj] at h; cases h), htimer⟩

theorem TableText.entryFinished {s : State} (h : TableText s) {r : FetchReq} {rest : List FetchReq}
    (hq : s.notices.queue = r :: rest) {e : FetchEnd} (hbuf : e.success = true → Within 1 (fetchedText s).length 240) :
    TableText (entryFinished r rest e s) := by
  have hended := h.fetchEnded hq
  obtain ⟨htable, htexts⟩ := h
  obtain ⟨hlt, hne⟩ := state_ne_empty_of_request htable (r := r) (hq ▸ List.mem_cons_self)
  obtain ⟨hlen, -, -, hnodup, -⟩ := htable
  obtain ⟨htexts, -⟩ := htexts
  rw [hq, List.map_cons, List.nodup_cons] at hnodup
  refine TableText.modEntry hlt hended _ (fun hactive => ?_) ?_ ?_
  · cases he : e.success with
    | true =>
      rw [(Entry.finish_success he).2]
      exact hbuf he
    | false =>
      rw [(Entry.finish_failure he).2]
      have hmem : entryAt s r.entry ∈ s.notices.entries := by
        rw [entryAt, List.getD_eq_getElem _ _ (by omega)]
        exact List.getElem_mem _
      exact htexts _ hmem ((Entry.finish_failure he).1.1 hactive)
  · exact TableText.id_of_kept hlt hended (fun _ => hne) (Entry.finish_id ..)
  · rintro ⟨r', hr', heq⟩
    exact absurd (List.mem_map.2 ⟨r', hr', heq⟩) hnodup.1

theorem NoticesSound.finishFetch {s : State} (h : NoticesSound s) {e : FetchEnd}
    (hbuf : e.success = true → Within 1 (fetchedText s).length 240) : NoticesSound (finishFetch e s) := by
  obtain ⟨htable, hrotation⟩ := noticesSound_iff.1 h
  cases hq : s.notices.queue with
  | nil =>
    unfold Machine.finishFetch
    rwa [hq]
  | cons r rest =>
    have hfinished := htable.entryFinished hq hbuf
    obtain ⟨hlt, -⟩ := state_ne_empty_of_request htable.1 (r := r) (hq ▸ List.mem_cons_self)
    obtain ⟨⟨hlen, -⟩, -⟩ := htable
    rw [finishFetch_eq hq]
    cases he : e.success with
    | false =>
      rw [if_neg nofun]
      refine noticesSound_dependsOn.keep (pend_only .noticeDone _) (noticesSound_iff.2 ⟨hfinished, ?_⟩)
      exact RotationSound.modEntry (s := fetchEnded rest s) hlt hrotation hlen _ (Entry.finish_failure he).1
    | true =>
      rw [if_pos rfl]
      have hactive : ∀ j, (entryAt s j).state = .active →
          (entryAt (Machine.entryFinished r rest e s) j).state = .active := fun j hj => by
        by_cases hjr : j = r.entry
        · rw [hjr, Machine.entryFinished, entryAt_modEntry_same (fetchEnded rest s) _ (hlen.symm ▸ hlt)]
          exact (Entry.finish_success he).1
        · rwa [Machine.entryFinished, entryAt_modEntry_other (fetchEnded rest s) _ hjr]
      have hcued := (pend_only .noticeDone (Machine.entryFinished r rest e s)).trans (noticeCued_only r _)
      obtain ⟨hshown, -, htimer⟩ := hrotation
      have hshown' : (noticeCued r (pend .noticeDone (Machine.entryFinished r rest e s))).notices.shown = s.notices.shown :=
        hcued.same .shown
      have htimer' : (noticeCued r (pend .noticeDone (Machine.entryFinished r rest e s))).notices.dwellTimer =
          s.notices.dwellTimer := hcued.same .dwellTimer
      have hentries := hcued.same .entries
      refine noticesSound_iff.2 ⟨tableText_dependsOn.keep (hcued.trans (showFetched_only _ _)) hfinished,
        showFetched_sound (fun j hj => ?_) (by rwa [hshown', htimer'])⟩
      obtain ⟨hj8, hjactive⟩ := hshown j (hshown' ▸ hj)
      have hentry : entryAt (noticeCued r (pend .noticeDone (Machine.entryFinished r rest e s))) j =
          entryAt (Machine.entryFinished r rest e s) j := congrArg (fun l : List Entry => l.getD j .reset) hentries
      exact ⟨hj8, hentry ▸ hactive j hjactive⟩

/-! ## Fetching -/

theorem NoticesSound.withFetch {s : State} (h : NoticesSound s) {f : Fetch} (hf : FetchText f) :
    NoticesSound { s with notices := { s.notices with fetch := some f } } := by
  obtain ⟨⟨htable, htexts⟩, hrotation⟩ := noticesSound_iff.1 h
  obtain ⟨htexts, -⟩ := noticeTextSound_iff.1 htexts
  refine noticesSound_iff.2 ⟨⟨htable, noticeTextSound_iff.2 ⟨htexts, ?_⟩⟩, hrotation⟩
  rintro f' ⟨⟩
  exact hf

theorem NoticesSound.requestFetch {s : State} (h : NoticesSound s) (addr : Nat) : NoticesSound (requestFetch addr s) :=
  noticesSound_dependsOn.keep (requestFetch_only addr s) h

theorem NoticesSound.beginFetches {s : State} (h : NoticesSound s) (n : Nat) : NoticesSound (beginFetches n s) := by
  induction n generalizing s with
  | zero => exact h
  | succ n ih =>
    unfold Machine.beginFetches
    split
    · exact h
    split
    · exact h
    · rename_i r rest _ _
      have hfetch := h.withFetch (f := Fetch.begin r.chain) ⟨by simp [Fetch.begin], nofun⟩
      dsimp only
      split
      · exact ih (hfetch.finishFetch nofun)
      · exact hfetch.requestFetch _

theorem NoticesSound.endFetch {s : State} (h : NoticesSound s) {e : FetchEnd}
    (hbuf : e.success = true → Within 1 (fetchedText s).length 240) : NoticesSound (endFetch e s) :=
  (h.finishFetch hbuf).beginFetches _

section

variable {s : State} (h : NoticesSound s) {f : Fetch} (hf : FetchText f)

include h hf

theorem NoticesSound.continueFetch : NoticesSound (continueFetch f s) := by
  have hfetch := h.withFetch hf
  unfold Machine.continueFetch
  dsimp only
  split
  · exact hfetch.endFetch nofun
  · exact hfetch.requestFetch _

/-- A fragment ends with its bytes taken; a success has collected text. -/
theorem NoticesSound.endFragment (hleft : f.left = 0) : NoticesSound (endFragment f s) := by
  have hfetch := h.withFetch hf
  obtain ⟨hroom, hmore⟩ := hf
  unfold Machine.endFragment
  dsimp only
  split
  · exact hfetch.endFetch nofun
  · rename_i htext
    split
    · rename_i hm
      have hfull := hmore hm
      exact hfetch.endFetch fun _ => ⟨by show 1 ≤ f.buf.length; omega, by show f.buf.length ≤ 240; omega⟩
    split
    · rename_i hnext
      exact hfetch.endFetch fun _ => ⟨by show 1 ≤ f.buf.length; omega, by show f.buf.length ≤ 240; omega⟩
    split
    · rename_i hlast
      have hnonempty : 1 ≤ f.buf.length := by
        have htext' : f.buf.length = 0 → f.count ≠ Config.fragmentMax := fun h0 hc => htext ⟨h0, .inr hc⟩
        obtain hl | hl := hlast
        · exact hl ▸ (by decide)
        · exact Nat.one_le_iff_ne_zero.2 fun h0 => htext' h0 hl
      exact hfetch.endFetch fun _ => ⟨hnonempty, by show f.buf.length ≤ 240; omega⟩
    split
    · exact hfetch.endFetch nofun
    · exact h.continueFetch ⟨hroom, hmore⟩

theorem NoticesSound.beginFragment (text : Nat) : NoticesSound (beginFragment f text s) := by
  obtain ⟨hroom, -⟩ := hf
  have hroom' : f.buf.length ≤ Config.textMax := by show f.buf.length ≤ 240; omega
  have hbegun : ∀ addr stage, FetchText { f with
      addr := addr, stage := stage, count := f.count + 1, pos := text, left := min f.len (Config.textMax - f.buf.length)
      more := decide (min f.len (Config.textMax - f.buf.length) < f.len) } := fun addr stage => by
    have hmax : Config.textMax = 240 := rfl
    refine ⟨?_, fun hmore => ?_⟩
    · show f.buf.length + min f.len (Config.textMax - f.buf.length) ≤ 240
      omega
    · have hless := of_decide_eq_true hmore
      show f.buf.length + min f.len (Config.textMax - f.buf.length) = 240
      omega
  unfold Machine.beginFragment
  dsimp only
  split
  · exact h.endFragment (hbegun _ _) ‹_›
  · exact h.continueFetch (hbegun _ _)

end

/-- A word gives no more bytes than are still to take. -/
theorem textBytes_length (pos left : Nat) (w : Word) : (textBytes pos left w).length ≤ left := by
  unfold textBytes
  rw [List.length_map]
  have hsmall : ∀ a < 4, ∀ l < 4,
      ((List.range 4).filter fun k => decide (a ≤ k) && decide (k < a + l)).length ≤ l := by decide
  by_cases hl : left < 4
  · exact hsmall _ (Nat.mod_lt _ (by decide)) left hl
  · have hle := List.length_filter_le (fun k => decide (pos % 4 ≤ k) && decide (k < pos % 4 + left)) (List.range 4)
    rw [List.length_range] at hle
    omega

theorem NoticesSound.takeText {s : State} (h : NoticesSound s) {f : Fetch} (hf : FetchText f) (w : Word) :
    NoticesSound (takeText f w s) := by
  obtain ⟨hroom, hmore⟩ := hf
  have hbytes := textBytes_length f.pos f.left w
  have htaken : FetchText { f with
      buf := f.buf ++ textBytes f.pos f.left w, pos := f.pos + (textBytes f.pos f.left w).length
      left := f.left - (textBytes f.pos f.left w).length, addr := f.addr + 4 } := by
    have hsum : (f.buf ++ textBytes f.pos f.left w).length + (f.left - (textBytes f.pos f.left w).length) =
        f.buf.length + f.left := by
      rw [List.length_append]
      omega
    exact ⟨hsum.trans_le hroom, fun hm => hsum.trans (hmore hm)⟩
  unfold Machine.takeText
  dsimp only
  split
  · exact h.endFragment htaken ‹_›
  · exact h.continueFetch htaken

theorem NoticesSound.deliverFetch {s : State} (h : NoticesSound s) (addr : Nat) (data : Word) (err : Bool) :
    NoticesSound (deliverFetch addr data err s) := by
  unfold Machine.deliverFetch
  split
  · have horphan : Only [.orphan] s { s with notices := { s.notices with orphan := false } } := .of_overlay rfl
    exact NoticesSound.beginFetches (noticesSound_dependsOn.keep horphan h) _
  split
  · exact h
  · rename_i f hf
    obtain ⟨⟨-, htexts⟩, -⟩ := noticesSound_iff.1 h
    have hfits : FetchText f := (noticeTextSound_iff.1 htexts).2 f hf
    split
    · exact h.endFetch nofun
    · unfold fetchAnswer
      split
      · exact h.continueFetch hfits
      · exact h.continueFetch hfits
      · exact h.beginFragment hfits _
      · exact h.takeText hfits _

/-! ## Posting, withdrawal and expiry -/

theorem entryWithId_some {s : State} {id i : Nat} (h : entryWithId s id = some i) :
    i < 8 ∧ (entryAt s i).state ≠ .empty ∧ (entryAt s i).id = id := by
  have hp := List.find?_some h
  rw [Bool.and_eq_true, decide_eq_true_eq, decide_eq_true_eq] at hp
  exact ⟨List.mem_range.1 (List.mem_of_find?_eq_some h), hp⟩

theorem entryWithId_none {s : State} {id : Nat} (h : entryWithId s id = none) :
    ∀ i < 8, (entryAt s i).state ≠ .empty → (entryAt s i).id ≠ id := by
  intro i hi hne hid
  have hp := List.find?_eq_none.1 h i (List.mem_range.2 hi)
  simp [hne, hid] at hp

theorem lowestEmpty_some {s : State} {i : Nat} (h : lowestEmpty s = some i) : i < 8 ∧ (entryAt s i).state = .empty :=
  ⟨List.mem_range.1 (List.mem_of_find?_eq_some h), by simpa using List.find?_some h⟩

theorem NoticesSound.changeEntry {s : State} (h : NoticesSound s) {i : Nat} (hi : i < 8) {f : Entry → Entry}
    (htable : TableText (modEntry i f s)) (hf : (f (entryAt s i)).state = .active ↔ (entryAt s i).state = .active) :
    NoticesSound (changeEntry i f s) := by
  obtain ⟨⟨⟨hlen, -⟩, -⟩, hrotation⟩ := noticesSound_iff.1 h
  exact noticesSound_dependsOn.keep (noteEntry_only i s _) (noticesSound_iff.2 ⟨htable, hrotation.modEntry hi hlen f hf⟩)

/-- The request that a post makes (R154). -/
def requestOf (i : Nat) (p : Post) : FetchReq :=
  { entry := i, id := p.id, cls := noticeClassOf p.cls, dwell := p.dwell, lifetime := p.lifetime, phrase := p.phrase,
    chain := p.chain }

/-- The fetch queue with one more request. -/
def requestQueued (r : FetchReq) (s : State) : State :=
  { s with notices := { s.notices with queue := s.notices.queue ++ [r] } }

theorem queueFetch_eq (i : Nat) (p : Post) (s : State) :
    queueFetch i p s = beginFetches (s.notices.queue.length + 1) (requestQueued (requestOf i p) s) := by
  have hlen : (requestQueued (requestOf i p) s).notices.queue.length = s.notices.queue.length + 1 := List.length_append
  rw [← hlen]
  rfl

/-- A request joins for an entry that waits for one. -/
theorem NoticesSound.queueFetch {s : State} (h : NoticesSound s) {i : Nat} (p : Post) (hi : i < 8)
    (hroom : s.notices.queue.length < 2) (hnew : ∀ r ∈ s.notices.queue, r.entry ≠ i)
    (hstate : (entryAt s i).state = .fetching ∨ (entryAt s i).state = .active ∧ (entryAt s i).replacing = true) :
    NoticesSound (queueFetch i p s) := by
  obtain ⟨⟨⟨hlen, hids, -, hnodup, hqueue⟩, htexts⟩, hrotation⟩ := noticesSound_iff.1 h
  rw [queueFetch_eq]
  refine NoticesSound.beginFetches (s := requestQueued (requestOf i p) s)
    (noticesSound_iff.2 ⟨⟨⟨hlen, hids, ?_, ?_, fun r hr => ?_⟩, htexts⟩, hrotation⟩) _
  · simpa [requestQueued] using hroom
  · show (s.notices.queue ++ [requestOf i p] |>.map (·.entry)).Nodup
    rw [List.map_append, List.map_singleton]
    refine List.nodup_append.2 ⟨hnodup, List.nodup_singleton _, fun a ha b hb => ?_⟩
    obtain ⟨r, hr, rfl⟩ := List.mem_map.1 ha
    rw [List.mem_singleton.1 hb]
    exact hnew r hr
  · obtain hr | hr := List.mem_append.1 hr
    · exact hqueue r hr
    · rw [List.mem_singleton.1 hr]
      exact ⟨hi, hstate⟩

/-- A post that no check refuses: no fetch of its id is pending, and the queue has room (R153). -/
theorem postRefusal_none {s : State} {p : Post} (h : postRefusal s p = none) :
    fetchPending s p.id = false ∧ s.notices.queue.length < 2 := by
  unfold postRefusal at h
  split at h
  · cases h
  split at h
  · cases h
  split at h
  · cases h
  · exact ⟨by simpa using ‹¬ fetchPending s p.id = true›, not_le.1 ‹_›⟩

/-- An ACTIVE entry with no request takes one, to be replaced (R154). -/
theorem NoticesSound.replaceEntry {s : State} (h : NoticesSound s) {p : Post} {i : Nat} (hi : entryWithId s p.id = some i)
    (hpending : fetchPending s p.id = false) (hroom : s.notices.queue.length < 2) :
    NoticesSound (Machine.queueFetch i p (Machine.changeEntry i (fun e => { e with replacing := true, result := .accepted }) s)) := by
  have htable := (noticesSound_iff.1 h).1
  obtain ⟨⟨hlen, -, -, -, hqueue⟩, htexts, -⟩ := id htable
  obtain ⟨hlt, hne, -⟩ := entryWithId_some hi
  unfold fetchPending at hpending
  rw [hi] at hpending
  simp only [Bool.or_eq_false_iff, decide_eq_false_iff_not] at hpending
  obtain ⟨hfetching, hreplacing⟩ := hpending
  have hactive : (entryAt s i).state = .active := by
    cases hstate : (entryAt s i).state with
    | active => rfl
    | empty => exact absurd hstate hne
    | fetching => exact absurd hstate hfetching
  have hmem : entryAt s i ∈ s.notices.entries := by
    rw [entryAt, List.getD_eq_getElem _ _ (by omega)]
    exact List.getElem_mem _
  have hnew : ∀ r ∈ s.notices.queue, r.entry ≠ i := by
    rintro r hr rfl
    obtain ⟨-, hstate | ⟨-, hstate⟩⟩ := hqueue r hr
    · exact hfetching hstate
    · exact Bool.false_ne_true (hreplacing.symm.trans hstate)
  have hchanged := h.changeEntry hlt (f := fun e => { e with replacing := true, result := .accepted })
    (TableText.modEntry hlt htable _ (fun _ => htexts (entryAt s i) hmem hactive)
      (TableText.id_of_kept hlt htable (fun _ => hne) rfl) fun _ => .inr ⟨hactive, rfl⟩) Iff.rfl
  have hsame : entryAt (Machine.changeEntry i (fun e => { e with replacing := true, result := .accepted }) s) i = _ :=
    Eq.trans (congrArg (fun l : List Entry => l.getD i .reset) ((noteEntry_only i s _).same .entries))
      (entryAt_modEntry_same s _ (by omega))
  have hqueue' : (Machine.changeEntry i (fun e => { e with replacing := true, result := .accepted }) s).notices.queue =
      s.notices.queue := (changeEntry_only i _ s).same .requests
  refine hchanged.queueFetch p hlt (hqueue' ▸ hroom) (hqueue' ▸ hnew) (.inr ?_)
  rw [hsame]
  exact ⟨hactive, rfl⟩

/-- An EMPTY entry is reserved for a new id, with its request (R154). -/
theorem NoticesSound.reserveEntry {s : State} (h : NoticesSound s) {p : Post} {i : Nat} (hi : lowestEmpty s = some i)
    (hfresh : entryWithId s p.id = none) (hroom : s.notices.queue.length < 2) :
    NoticesSound (Machine.queueFetch i p (Machine.changeEntry i (fun _ => reservedEntry p.id) s)) := by
  have htable := (noticesSound_iff.1 h).1
  obtain ⟨⟨hlen, -, -, -, hqueue⟩, -⟩ := id htable
  obtain ⟨hlt, hempty⟩ := lowestEmpty_some hi
  have hnew : ∀ r ∈ s.notices.queue, r.entry ≠ i := by
    rintro r hr rfl
    obtain ⟨-, hstate | ⟨hstate, -⟩⟩ := hqueue r hr <;> rw [hempty] at hstate <;> cases hstate
  have hchanged := h.changeEntry hlt (f := fun _ => reservedEntry p.id)
    (TableText.modEntry hlt htable _ nofun (fun _ j hj _ hne => entryWithId_none hfresh j hj hne) fun _ => .inl rfl)
    (by simp [reservedEntry, hempty])
  have hsame : entryAt (Machine.changeEntry i (fun _ => reservedEntry p.id) s) i = reservedEntry p.id :=
    Eq.trans (congrArg (fun l : List Entry => l.getD i .reset) ((noteEntry_only i s _).same .entries))
      (entryAt_modEntry_same s _ (by omega))
  have hqueue' : (Machine.changeEntry i (fun _ => reservedEntry p.id) s).notices.queue = s.notices.queue :=
    (changeEntry_only i _ s).same .requests
  refine hchanged.queueFetch p hlt (hqueue' ▸ hroom) (hqueue' ▸ hnew) (.inl ?_)
  rw [hsame]
  rfl

theorem NoticesSound.postNotice {s : State} (h : NoticesSound s) (words : List Word) : NoticesSound (postNotice words s) := by
  have hdone {u : State} (p : Primary) (q : Secondary) (results : List Word) (hu : NoticesSound u) :
      NoticesSound (complete p q results u) := noticesSound_dependsOn.keep (complete_only p q results u) hu
  unfold Machine.postNotice
  dsimp only
  split
  · exact hdone _ _ _ h
  · rename_i hnone
    obtain ⟨hpending, hroom⟩ := postRefusal_none hnone
    split
    · exact hdone _ _ _ (h.replaceEntry ‹_› hpending hroom)
    split
    · exact hdone _ _ _ (h.reserveEntry ‹_› ‹_› hroom)
    · exact hdone _ _ _ h

theorem TableText.dropFetch {s : State} (h : TableText s) (i : Nat) :
    TableText (dropFetch i s) ∧ ∀ r ∈ (dropFetch i s).notices.queue, r.entry ≠ i := by
  obtain ⟨⟨hlen, hids, hroom, hnodup, hqueue⟩, htexts⟩ := h
  obtain ⟨htexts, hfetch⟩ := noticeTextSound_iff.1 htexts
  have hroom' := (List.length_filter_le (fun r : FetchReq => decide (r.entry ≠ i)) s.notices.queue).trans hroom
  have hnodup' := hnodup.sublist ((List.filter_sublist (p := fun r : FetchReq => decide (r.entry ≠ i))).map (·.entry))
  have hqueue' := fun r (hr : r ∈ s.notices.queue.filter fun r => decide (r.entry ≠ i)) => hqueue r (List.mem_of_mem_filter hr)
  have hgone : ∀ r ∈ s.notices.queue.filter fun r => decide (r.entry ≠ i), r.entry ≠ i := fun r hr => by
    simpa using (List.mem_filter.1 hr).2
  unfold Machine.dropFetch
  dsimp only
  split
  · exact ⟨⟨⟨hlen, hids, hroom', hnodup', hqueue'⟩, noticeTextSound_iff.2 ⟨htexts, nofun⟩⟩, hgone⟩
  · exact ⟨⟨⟨hlen, hids, hroom', hnodup', hqueue'⟩, noticeTextSound_iff.2 ⟨htexts, hfetch⟩⟩, hgone⟩

/-- The rotation follows an entry that went. -/
theorem rotateIfGone_sound {s : State} (h : TableText s) (hlt : ∀ j, s.notices.shown = some j → j < 8)
    (hnone : s.notices.shown = none → ∀ i < 8, (entryAt s i).state ≠ .active)
    (htimer : s.notices.dwellTimer.isSome = s.notices.shown.isSome) : NoticesSound (rotateIfGone s) := by
  unfold rotateIfGone
  split
  · rename_i j hj
    split
    · rename_i hactive
      refine noticesSound_iff.2 ⟨h, fun k hk => ?_, fun hs => ?_, htimer⟩
      · rw [hj] at hk
        cases hk
        exact ⟨hlt j hj, isActive_iff.1 hactive⟩
      · rw [hj] at hs
        cases hs
    · exact NoticesSound.rotate h
  · rename_i hs
    exact noticesSound_iff.2 ⟨h, fun k hk => (by rw [hs] at hk; cases hk), hnone, htimer⟩

theorem NoticesSound.withdrawNotice {s : State} (h : NoticesSound s) (words : List Word) :
    NoticesSound (withdrawNotice words s) := by
  unfold Machine.withdrawNotice
  split
  · exact noticesSound_dependsOn.keep (complete_only _ _ _ s) h
  · rename_i i hi
    obtain ⟨hlt, -, -⟩ := entryWithId_some hi
    obtain ⟨htable, hshown, hnone, htimer⟩ := noticesSound_iff.1 h
    obtain ⟨hdropped, hgone⟩ := htable.dropFetch i
    have hd := dropFetch_only i s
    have hentries : (dropFetch i s).notices.entries = s.notices.entries := hd.same .entries
    have hsh : (dropFetch i s).notices.shown = s.notices.shown := hd.same .shown
    have hti : (dropFetch i s).notices.dwellTimer = s.notices.dwellTimer := hd.same .dwellTimer
    have hlen : (dropFetch i s).notices.entries.length = 8 := hdropped.1.1
    have htable' : TableText (modEntry i (Entry.emptied .withdrawn) (dropFetch i s)) :=
      hdropped.modEntry hlt _ nofun (fun hne => absurd rfl hne) fun ⟨r, hr, he⟩ => absurd he (hgone r hr)
    refine noticesSound_dependsOn.keep (complete_only _ _ _ _)
      (rotateIfGone_sound htable' (fun j hj => (hshown j (hsh ▸ hj)).1) (fun hs j hj => ?_) (?_))
    · by_cases hji : j = i
      · subst hji
        rw [entryAt_modEntry_same (dropFetch j s) _ (by omega)]
        exact nofun
      · rw [entryAt_modEntry_other (dropFetch i s) _ hji, entryAt, hentries]
        exact hnone (hsh ▸ hs) j hj
    · exact (congrArg Option.isSome hti).trans (htimer.trans (congrArg Option.isSome hsh).symm)

/-- What ageing leaves of an entry (R162). -/
theorem Entry.age_cases (passed : Nat) (e : Entry) :
    (e.age passed).id = e.id ∧
      ((e.age passed).state = e.state ∧ (e.age passed).replacing = e.replacing ∧ (e.age passed).text = e.text ∨
        e.state = .active ∧ (e.age passed).state = if e.replacing then .fetching else .empty) := by
  unfold Entry.age
  split
  · rename_i hactive
    split
    · exact ⟨rfl, .inr ⟨hactive.1, rfl⟩⟩
    · exact ⟨rfl, .inl ⟨rfl, rfl, rfl⟩⟩
  · exact ⟨rfl, .inl ⟨rfl, rfl, rfl⟩⟩

theorem Entry.age_state {passed : Nat} {e : Entry} :
    ((e.age passed).state ≠ .empty → e.state ≠ .empty) ∧
      ((e.age passed).state = .active → e.state = .active ∧ (e.age passed).text = e.text) := by
  obtain ⟨-, ⟨hstate, -, htext⟩ | ⟨hactive, hstate⟩⟩ := Entry.age_cases passed e
  · rw [hstate]
    exact ⟨fun h => h, fun h => ⟨h, htext⟩⟩
  · refine ⟨fun _ h => ?_, fun h => ?_⟩
    · rw [hactive] at h
      cases h
    · rw [hstate] at h
      split at h <;> cases h

theorem TableText.ageNotices {s : State} (h : TableText s) (passed : Nat) : TableText (ageNotices passed s) := by
  obtain ⟨⟨hlen, hids, hroom, hnodup, hqueue⟩, htexts⟩ := h
  obtain ⟨htexts, hfetch⟩ := noticeTextSound_iff.1 htexts
  have hat : ∀ i < 8, entryAt (Machine.ageNotices passed s) i = (entryAt s i).age passed := fun i hi => by
    have hi' : i < s.notices.entries.length := by omega
    simp [entryAt, Machine.ageNotices, hi']
  refine ⟨⟨by simpa [Machine.ageNotices] using hlen, fun i hi j hj hine hjne hij => ?_, hroom, hnodup, fun r hr => ?_⟩,
    noticeTextSound_iff.2 ⟨fun e he hactive => ?_, hfetch⟩⟩
  · rw [hat i hi] at hine hij
    rw [hat j hj] at hjne hij
    rw [(Entry.age_cases passed _).1, (Entry.age_cases passed _).1] at hij
    exact hids i hi j hj (Entry.age_state.1 hine) (Entry.age_state.1 hjne) hij
  · obtain ⟨hlt, hstate⟩ := hqueue r hr
    refine ⟨hlt, ?_⟩
    rw [hat r.entry hlt]
    obtain ⟨-, ⟨hsame, hreplacing, -⟩ | ⟨hactive, haged⟩⟩ := Entry.age_cases passed (entryAt s r.entry)
    · rwa [hsame, hreplacing]
    · obtain hf | ⟨-, hr⟩ := hstate
      · rw [hactive] at hf
        cases hf
      · exact .inl (by rw [haged, hr]; rfl)
  · obtain ⟨e', he', rfl⟩ := List.mem_map.1 he
    obtain ⟨hactive', htext⟩ := Entry.age_state.2 hactive
    rw [htext]
    exact htexts e' he' hactive'

theorem NoticesSound.noticeMinutes {s : State} (h : NoticesSound s) (passed : Nat) :
    NoticesSound (noticeMinutes passed s).1 := by
  obtain ⟨htable, hshown, hnone, htimer⟩ := noticesSound_iff.1 h
  have haged := htable.ageNotices passed
  have hlen : s.notices.entries.length = 8 := htable.1.1
  have hnone' : s.notices.shown = none → ∀ i < 8, (entryAt (ageNotices passed s) i).state ≠ .active := fun hs i hi ha => by
    have hat : entryAt (ageNotices passed s) i = (entryAt s i).age passed := by
      have hi' : i < s.notices.entries.length := by omega
      simp [entryAt, ageNotices, hi']
    exact hnone hs i hi (Entry.age_state.2 (hat ▸ ha)).1
  unfold Machine.noticeMinutes
  dsimp only
  split
  · rename_i j hj
    have hj' : s.notices.shown = some j := hj
    split
    · rename_i hactive
      refine noticesSound_iff.2 ⟨haged, fun k hk => ?_, fun hs => hnone' hs, htimer⟩
      rw [hj] at hk
      cases hk
      exact ⟨(hshown j hj').1, isActive_iff.1 hactive⟩
    · exact noticesSound_iff.2 ⟨tableText_dependsOn.keep (showEntry_only _ _) haged, advanceRotation_sound _⟩
  · rename_i hs
    exact noticesSound_iff.2 ⟨haged, fun k hk => (by rw [hs] at hk; cases hk), hnone', htimer⟩

/-! ## The step -/

theorem noticesSound_keepsTime : KeepsTime NoticesSound where
  slots a s h := noticesSound_dependsOn.keep (advanceSlots_only a s) h
  notices n _ h := h.noticeMinutes n

theorem noticesSound_keepsAnswers : KeepsAnswers NoticesSound where
  config words s _ h :=
    have h₁ : NoticesSound (followMode (discardBoards (setParams (paramsOf words) (takeRoles (paramsOf words) s)))) :=
      noticesSound_dependsOn.keep ((((takeRoles_only _ s).trans (setParams_only _ _)).trans (discardBoards_only _)).trans
        (followMode_only _)) h
    applySourceAndRoll_keeps noticesSound_dependsOn noticesSound_keepsTime rfl _ _ h₁ rfl
  stage i k w s h := noticesSound_dependsOn.keep (stageWord_only i k w s) h
  load i faulted s h := noticesSound_dependsOn.keep (loadOutcome_only i faulted s) h
  refresh s h := noticesSound_dependsOn.keep (handMarks_only _ s) h
  fetch addr data err _ h := h.deliverFetch addr data err

theorem effect_keeps_notices {c : Instr} {s : State} (hc : concerns noticeLeaves c = true) (ho : occurs c s = true)
    (hs : NoticesSound s) : NoticesSound (effect c s) := by
  have htime (cause : TickCause) : NoticesSound (timeEvent cause s) :=
    timeEvent_keeps noticesSound_dependsOn noticesSound_keepsTime rfl cause hs
  cases c
  case ownReadComplete data err => exact finishOwnRead_keeps noticesSound_dependsOn noticesSound_keepsAnswers rfl data err hs
  case internalReferenceSecond => exact htime _
  case masterPulse => exact htime _
  case footnoteExpiry => exact htime _
  case highlightExpiry => exact htime _
  case noticeExpiry => exact htime _
  case slewComplete => exact htime _
  case setClock err =>
    exact handTrigger_keeps noticesSound_dependsOn (trigger_of_triggers ho)
      (fun words _ _ h => setClockCommand_keeps noticesSound_dependsOn noticesSound_keepsTime rfl words h) hs
  case postNotice err =>
    exact handTrigger_keeps noticesSound_dependsOn (trigger_of_triggers ho) (fun words _ _ h => h.postNotice words) hs
  case withdrawNotice err =>
    exact handTrigger_keeps noticesSound_dependsOn (trigger_of_triggers ho) (fun words _ _ h => h.withdrawNotice words) hs
  case tickerDwellExpiry => exact NoticesSound.rotate (noticesSound_iff.1 hs).1
  all_goals exact (Bool.false_ne_true hc).elim

theorem noticesSound_afterReset (straps : BitVec 4) (ack busy : Bool) (n : Nat) (queue : List Instr) :
    NoticesSound (State.afterReset straps ack busy n queue) := by
  have hempty : ∀ i, (entryAt (State.afterReset straps ack busy n queue) i).state = .empty := fun i => by
    simp only [entryAt, State.afterReset, NoticeUnit.reset, List.getD_eq_getElem?_getD, List.getElem?_replicate]
    split <;> rfl
  refine ⟨⟨rfl, fun i _ j _ hne => absurd (hempty i) hne, Nat.zero_le 2, List.nodup_nil, fun r hr => by cases hr⟩,
    noticeTextSound_iff.2 ⟨fun e he hactive => ?_, nofun⟩, nofun, fun _ i _ => ?_, rfl⟩
  · rw [List.eq_of_mem_replicate he] at hactive
    cases hactive
  · rw [hempty]
    decide

/-- Settles O60: a request is of an entry that waits for it, a fetch ends with text only where it has collected some, and the rotation
advances whenever the entry it shows goes. -/
theorem stepKeepsNoticesSound : Obligations.StepKeepsNoticesSound := fun _ _ hs h =>
  step_keeps noticesSound_dependsOn rfl noticesSound_afterReset
    (fun s _ hs => noticesSound_dependsOn.keep (release_only s) hs)
    (fun s t _ ht => noticesSound_dependsOn.keep (settle_only s t) ht)
    (fun _ _ _ hc ho hs => effect_keeps_notices hc ho hs) h hs

end Sys2Proof.Machine
end

section
/-! PROOFS. The machine as a whole: one step, totality, the window and its straps, the flags of the Attention Unit, and the state after
hard reset. -/

namespace Sys2Proof.Machine

set_option Elab.async false

/-! ## Steps -/

/-- Settles O1: a step is the case split of its definition over the queue. -/
theorem stepRunsTheFrontCommand : Obligations.StepRunsTheFrontCommand := by
  unfold Obligations.StepRunsTheFrontCommand
  exact ⟨fun c rest s h => by simp only [step, h], fun s h => by simp only [step, h]⟩

/-- No command's effect reaches a leaf that none of them lists. -/
theorem effect_same (c : Instr) (s : State) (f : Leaf) (h : (touched c).contains f = false) : Same f s (effect c s) :=
  (effect_only c s).same f h

theorem touched_pending (c : Instr) : (touched c).contains .pending = false := by cases c <;> rfl

theorem touched_strap (c : Instr) : (touched c).contains .strap = false := by cases c <;> rfl

/-- Settles O2: each outcome of `exec_cases` leaves the queue, by the frame of the command. -/
theorem everyCommandAnswersANextState : Obligations.EveryCommandAnswersANextState := by
  unfold Obligations.EveryCommandAnswersANextState
  intro c s
  obtain ⟨t, he, ht⟩ := exec_cases c s
  refine ⟨t, he, ?_⟩
  obtain rfl | ⟨straps, -, rfl⟩ | ⟨-, -, rfl⟩ | ⟨-, ⟨level, rfl⟩ | ⟨level, rfl⟩⟩ | ⟨-, -, -, rfl⟩ := ht
  · rfl
  · rfl
  · rfl
  · rfl
  · rfl
  · exact effect_same c s .pending (touched_pending c)

/-! ## The window (R1) -/

theorem addrClass_outside {strap : BitVec 4} {addr : Nat}
    (h : addr < strap.toNat * 0x400000 ∨ strap.toNat * 0x400000 + 0x4000 ≤ addr) : addrClass strap addr = .plain := by
  rw [addrClass, strapBase, if_neg (by omega)]

theorem addrClass_inside (strap : BitVec 4) {offset : Nat} (h : offset < 0x4000) :
    addrClass strap (strap.toNat * 0x400000 + offset) = classOf offset := by
  rw [addrClass, strapBase, if_pos (by omega), Nat.add_sub_cancel_left]

/-- Settles O5: the window is the definition of `addrClass`; of `exec_cases` only the hard reset has the straps in its frame. -/
theorem windowFollowsTheSampledStraps : Obligations.WindowFollowsTheSampledStraps := by
  unfold Obligations.WindowFollowsTheSampledStraps
  refine ⟨fun strap addr => ⟨addrClass_outside, fun offset h => addrClass_inside strap h⟩, fun c s t h => ?_⟩
  constructor
  · rintro straps rfl
    cases h
    rfl
  · intro hc
    obtain ⟨t', he, ht⟩ := exec_cases c s
    rw [he] at h
    cases h
    obtain rfl | ⟨straps, hcmd, -⟩ | ⟨-, -, rfl⟩ | ⟨-, ⟨level, rfl⟩ | ⟨level, rfl⟩⟩ | ⟨-, -, -, rfl⟩ := ht
    · rfl
    · exact absurd hcmd (hc straps)
    · rfl
    · rfl
    · rfl
    · exact effect_same c s .strap (touched_strap c)

/-! ## Flags (R170) -/

theorem EventClass.bit_lt (c : EventClass) : c.bit < 14 := by cases c <;> decide

/-- The flag word of a class has its bit alone. -/
theorem EventClass.getLsbD_flag (c : EventClass) {i : Nat} (h : i < 14) : c.flag.getLsbD i = decide (i = c.bit) := by
  have hone : c.flag = BitVec.twoPow 14 c.bit := (BitVec.twoPow_eq 14 c.bit).symm
  simp [hone, h]

theorem Attention.getLsbD_pend (c : EventClass) (a : Attention) {i : Nat} (h : i < 14) :
    (a.pend c).pending.getLsbD i = (a.pending.getLsbD i || decide (i = c.bit)) ∧
      (a.pend c).request.getLsbD i = (a.request.getLsbD i || (decide (i = c.bit) && a.mask.getLsbD i)) := by
  simp [Attention.pend, c.getLsbD_flag h]

theorem Attention.line_iff (a : Attention) : a.line = true ↔ ∃ i < 14, a.request.getLsbD i = true := by
  rw [Attention.line, decide_eq_true_iff, ne_eq, BitVec.eq_of_getLsbD_eq_iff]
  simp

/-- Settles O6: flag by flag. -/
theorem pendedEventSetsItsFlags : Obligations.PendedEventSetsItsFlags := by
  unfold Obligations.PendedEventSetsItsFlags
  exact fun c a => ⟨rfl, fun i h => a.getLsbD_pend c h, a.line_iff, rfl⟩

/-- A class pended is pending, and stays so while events are pended. -/
theorem isPending_after {e : EventClass} {events : List EventClass} {a : Attention}
    (h : e ∈ events ∨ a.pending.getLsbD e.bit = true) : (a.after events).pending.getLsbD e.bit = true := by
  induction events generalizing a with
  | nil => exact h.resolve_left (List.not_mem_nil)
  | cons c rest ih =>
    refine ih (a := a.pend c) ?_
    rw [(a.getLsbD_pend c e.bit_lt).1]
    rcases h with h | h
    · rcases List.mem_cons.1 h with rfl | h
      · exact .inr (by simp)
      · exact .inl h
    · exact .inr (by simp [h])

/-- A flag pending stays so while flags change by events pended alone. -/
theorem IsPending.of_flags {e : EventClass} {s t : State} (h : IsPending e s) (hf : FlagsPended s t) : IsPending e t := by
  obtain ⟨events, hatt⟩ := hf
  rw [IsPending, hatt]
  exact isPending_after (.inr h)

theorem isPending_pend (e : EventClass) (s : State) : IsPending e (pend e s) := by
  rw [IsPending, pend_att, (s.att.getLsbD_pend e e.bit_lt).1]
  simp

/-! ## The state after hard reset -/

theorem pairwise_writtenBack : writtenBack.Pairwise (· < ·) := by decide +kernel

section AfterReset

variable (straps : BitVec 4) (ack busy : Bool) (n : Nat) (queue : List Instr)

theorem slotAt_afterReset (i : Nat) : slotAt (State.afterReset straps ack busy n queue) i = .reset :=
  List.getElem?_getD_replicate_default_eq ..

theorem statusWord_afterReset (i : Nat) : statusWord (State.afterReset straps ack busy n queue) i = 0x007F0000 := by
  have hpos : positionOf (State.afterReset straps ack busy n queue) i = none := rfl
  simp only [statusWord, slotAt_afterReset, hpos]
  decide +kernel

theorem footnoteAt_afterReset (p : Nat) : footnoteAt (State.afterReset straps ack busy n queue) p = none :=
  List.getElem?_getD_replicate_default_eq ..

theorem entryAt_afterReset (i : Nat) : entryAt (State.afterReset straps ack busy n queue) i = .reset :=
  List.getElem?_getD_replicate_default_eq ..

theorem summaryWord_afterReset : summaryWord (State.afterReset straps ack busy n queue) = 0 := by
  show packWord [(0, 0), (0, 2), (0, 4), (0, 7), (0, 10), (0, 11), (0, 24)] = 0
  rfl

/-- The default layout (R94). -/
theorem roleOf_reset (d : Nat) :
    roleOf Params.reset d =
      if d < 24 then .wall d else if d = 48 then .clock else if d = 49 then .ticker
        else if 64 ≤ d ∧ d < 80 then .board (d - 63) else .none := by
  have hboard : (if 64 ≤ d ∧ d < 80 then Role.board (d - 64 + 1) else .none) =
      if 64 ≤ d ∧ d < 80 then .board (d - 63) else .none := by
    split_ifs with hd
    · rw [show d - 64 + 1 = d - 63 by omega]
    · rfl
  rw [← hboard]
  show (if 0 ≤ d ∧ d < 0 + 24 then Role.wall (d - 0) else if d = 48 then .clock else if d = 49 then .ticker
    else if 64 ≤ d ∧ d < 64 + 16 then .board (d - 64 + 1) else .none) = _
  simp only [Nat.zero_le, true_and, Nat.zero_add, Nat.sub_zero, Nat.reduceAdd]

theorem dropAt_afterReset {d : Nat} (h : d < 128) :
    dropAt (State.afterReset straps ack busy n queue) d = Drop.fresh (roleOf Params.reset d) := by
  simp [dropAt, State.afterReset, Display.reset, h]

theorem responseWord_reset {k : Nat} (h : k < 8) : responseWord CommandArea.reset k = 0 := by
  interval_cases k <;> rfl

end AfterReset

/-- Settles O26: the hard reset is `State.afterReset`, unit by unit; the release is its definition. -/
theorem hardResetSetsEveryUnit : Obligations.HardResetSetsEveryUnit := by
  unfold Obligations.HardResetSetsEveryUnit
  refine ⟨fun straps s => ⟨_, rfl, ?_⟩, fun s h => by rw [exec, execHardResetRelease, if_pos h]; rfl⟩
  refine ⟨rfl, rfl, rfl, rfl, rfl, rfl, pairwise_writtenBack, rfl, rfl, rfl, rfl, rfl, rfl, rfl,
    fun i _ => ⟨slotAt_afterReset .., statusWord_afterReset ..⟩, rfl, fun p => footnoteAt_afterReset .., rfl, rfl,
    fun d hd => ?_, rfl, rfl, rfl, rfl, rfl, rfl, rfl, rfl, rfl, rfl, rfl, rfl, rfl, rfl, rfl, rfl, rfl, rfl, rfl, rfl,
    fun i _ => entryAt_afterReset .., rfl, rfl, rfl, rfl, rfl, rfl, rfl, rfl, rfl, fun k hk => responseWord_reset hk, rfl, rfl,
    rfl, ?_⟩
  · rw [dropAt_afterReset _ _ _ _ _ hd, roleOf_reset]
    rfl
  · exact summaryWord_afterReset ..

/-- Settles O52: the state after hard reset is one of those that each invariant holds of. -/
theorem resetSatisfiesTheInvariants : Obligations.ResetSatisfiesTheInvariants :=
  ⟨attentionSound_afterReset .., clockSound_afterReset .., paramsSound_afterReset ..,
    writeBackSound_iff.2 ⟨writeBackFits_afterReset .., rfl⟩, requestsSound_afterReset .., displaySound_afterReset ..,
    rowMapSound_afterReset .., cuesSound_afterReset .., linkSound_afterReset .., noticesSound_afterReset ..⟩

end Sys2Proof.Machine
end

section
/-! PROOFS. The bus rows: accesses that arrive, the arbiter, and what each completion of an access comes to. -/

namespace Sys2Proof.Machine

set_option Elab.async false

/-! ## Arbitration (R16 to R18) -/

section Arbiter

variable {s : State}

theorem ownWaiting_iff : s.mem.ownWaiting = true ↔ OwnWaits s := by
  simp [MemPath.ownWaiting]

theorem ownWaiting_eq_false (h : ¬OwnWaits s) : s.mem.ownWaiting = false :=
  Bool.eq_false_iff.2 fun h' => h (ownWaiting_iff.1 h')

theorem starved_iff : starved s = true ↔ OwnWaits s ∧ s.params.starvation ≤ s.mem.counter := by
  rw [starved, Bool.and_eq_true, ownWaiting_iff, decide_eq_true_iff]

theorem startOwn_read {r : ReadReq} {rest : List ReadReq} (hr : s.mem.reads = r :: rest)
    (h : s.mem.writeBacks = [] ∨ s.mem.lastOwn = .writeBack) :
    startOwn s = { s with mem := { s.mem with port := .ownRead r, lastOwn := .read } } := by
  have hnext : s.mem.readsNext = true := by simp [MemPath.readsNext, hr, h]
  simp only [startOwn, hnext, hr]
  rfl

theorem startOwn_writeBack {e : WbEntry} {rest : List WbEntry} (hw : s.mem.writeBacks = e :: rest)
    (h : s.mem.reads = [] ∨ s.mem.lastOwn ≠ .writeBack) :
    startOwn s = { s with mem :=
      { s.mem with port := .writeBack e.offset (partWord s (classOf e.offset)), lastOwn := .writeBack } } := by
  have hnext : s.mem.readsNext = false := by
    rcases h with h | h <;> simp [MemPath.readsNext, hw, h]
  simp only [startOwn, hnext, hw]
  rfl

theorem startProcessor_eq {a : Access} (h : s.mem.waiting = some a) :
    startProcessor s = { s with mem := { s.mem with port := .processor a, waiting := none } } := by
  simp only [startProcessor, h]
  rfl

/-- A processor access that starts with an own access waiting is counted (R17). -/
theorem startCounted_eq {a : Access} (h : s.mem.waiting = some a) (ho : OwnWaits s) :
    startCounted s = { s with mem :=
      { s.mem with port := .processor a, waiting := none, counter := s.mem.counter + 1 } } := by
  rw [startCounted, if_pos (ownWaiting_iff.2 ho)]
  exact startProcessor_eq h

theorem startCounted_of_not (ho : ¬OwnWaits s) : startCounted s = startProcessor s := by
  rw [startCounted, if_neg (fun h => ho (ownWaiting_iff.1 h))]

/-- The part's value of a word does not read the arbitration mode. -/
theorem partWord_setMode (m : MemMode) (s : State) (c : WordClass) : partWord (setMode m s) c = partWord s c := by
  cases c <;> rfl

/-- The choice of an own access neither reads nor changes the arbitration mode (R16). -/
theorem startOwn_setMode (m : MemMode) (s : State) : startOwn (setMode m s) = setMode m (startOwn s) := by
  have hnext : (setMode m s).mem.readsNext = s.mem.readsNext := rfl
  have hreads : (setMode m s).mem.reads = s.mem.reads := rfl
  have hwrites : (setMode m s).mem.writeBacks = s.mem.writeBacks := rfl
  simp only [startOwn, hnext, hreads, hwrites, partWord_setMode]
  split
  · split <;> rfl
  · split <;> rfl

theorem arbitrate_own (hmode : s.mem.mode = .urgent ∨ s.mem.waiting = none) (ho : OwnWaits s) : arbitrate s = startOwn s := by
  have how := ownWaiting_iff.2 ho
  rcases hmode with h | h
  · simp only [arbitrate, h, how]
  · cases hm : s.mem.mode <;> simp [arbitrate, h, how, hm]

theorem arbitrate_waiting {a : Access} (hmode : s.mem.mode = .normal) (h : s.mem.waiting = some a) :
    arbitrate s = if starved s then startOwn (setMode .urgent s) else startCounted s := by
  simp [arbitrate, hmode, h]

theorem arbitrate_none (ho : ¬OwnWaits s) (h : s.mem.waiting = none) :
    arbitrate s = { s with mem := { s.mem with mode := .normal } } := by
  cases hm : s.mem.mode
  · have hs : arbitrate s = s := by simp [arbitrate, hm, h, ownWaiting_eq_false ho]
    rw [hs, ← hm]
  · simp only [arbitrate, hm, ownWaiting_eq_false ho, startProcessor, setMode, setMem, h]

theorem arbitrate_processor {a : Access} (ho : ¬OwnWaits s) (h : s.mem.waiting = some a) :
    arbitrate s = { s with mem := { s.mem with port := .processor a, waiting := none, mode := .normal } } := by
  cases hm : s.mem.mode
  · rw [arbitrate_waiting hm h, if_neg (fun hs => ho (starved_iff.1 hs).1), startCounted_of_not ho, startProcessor_eq h]
    simp [← hm]
  · simp only [arbitrate, hm, ownWaiting_eq_false ho]
    exact startProcessor_eq (s := setMode .normal s) h

end Arbiter

/-- Settles O8: the own access that R16 chooses is given by the two lists and what was started last; the rest is R18's table. -/
theorem arbiterFollowsItsTable : Obligations.ArbiterFollowsItsTable := by
  unfold Obligations.ArbiterFollowsItsTable
  intro s own hpin hport hown
  have hstart : OwnWaits s → startOwn s = { s with mem := own } := by
    intro ho
    split at hown
    · rename_i r _ hr hw
      rw [startOwn_read hr (.inl hw), hown]
    · rename_i r _ e _ hr hw
      split at hown
      · rw [startOwn_read hr (.inr ‹_›), hown]
      · rw [startOwn_writeBack hw (.inr ‹_›), hown]
    · rename_i e _ hr hw
      rw [startOwn_writeBack hw (.inl hr), hown]
    · rename_i hr hw
      exact absurd ho (by simp [OwnWaits, hr, hw])
  have harb : exec .arbiterStart s = .next (settle s (arbitrate s)) := exec_of_occurs rfl hpin (by simp [occurs, hport])
  rw [harb]
  refine ⟨fun ho hm => ?_, fun ho hm a ha => ⟨fun hc => ?_, fun hc => ?_⟩, fun ho => ⟨fun a ha => ?_, fun ha => ?_⟩⟩
  · rw [arbitrate_own hm ho, hstart ho]
  · rw [arbitrate_waiting hm ha, if_neg (fun hs => Nat.not_le_of_lt hc (starved_iff.1 hs).2), startCounted_eq ha ho]
  · have hs : starved s = true := starved_iff.2 ⟨ho, hc⟩
    have hlimit : atLimit s = true := by simp [atLimit, hport, hm, ha, hs]
    have hstarve : exec .starvationLimitReached s = .next (settle s (startOwn (setMode .urgent s))) :=
      exec_of_occurs rfl hpin hlimit
    rw [hstarve, arbitrate_waiting hm ha, if_pos hs, startOwn_setMode, hstart ho]
    exact ⟨rfl, rfl⟩
  · rw [arbitrate_processor ho ha]
  · rw [arbitrate_none ho ha]

/-! ## Accesses that arrive -/

theorem not_processor_iff {s : State} : (∀ b, s.mem.port ≠ .processor b) ↔ inPort s = none := by
  unfold inPort
  cases s.mem.port <;> simp

theorem portFree_of {s : State} (hw : s.mem.waiting = none) (hp : ∀ b, s.mem.port ≠ .processor b) : portFree s = true := by
  simp [portFree, hw, not_processor_iff.1 hp]

/-- On an idle port an access that has arrived starts or waits by the own accesses, the counter and the mode (R17, R18). -/
theorem startArrived_eq {s : State} {a : Access} (h : s.mem.waiting = some a) :
    startArrived s =
      if OwnWaits s then
        if s.mem.mode = .normal ∧ s.mem.counter < s.params.starvation then
          { s with mem := { s.mem with port := .processor a, waiting := none, counter := s.mem.counter + 1 } }
        else s
      else { s with mem := { s.mem with port := .processor a, waiting := none, mode := .normal } } := by
  cases hm : s.mem.mode
  · have hstart : startArrived s = if starved s then s else startCounted s := by simp only [startArrived, hm]
    rw [hstart]
    by_cases ho : OwnWaits s
    · rw [if_pos ho, startCounted_eq h ho]
      by_cases hc : s.mem.counter < s.params.starvation
      · rw [if_neg fun hs => Nat.not_le_of_lt hc (starved_iff.1 hs).2, if_pos ⟨rfl, hc⟩]
      · rw [if_pos (starved_iff.2 ⟨ho, Nat.le_of_not_lt hc⟩), if_neg fun hs => hc hs.2]
    · rw [if_neg ho, if_neg fun hs => ho (starved_iff.1 hs).1, startCounted_of_not ho, startProcessor_eq h, ← hm]
  · have hstart : startArrived s = if s.mem.ownWaiting then s else startProcessor (setMode .normal s) := by
      simp only [startArrived, hm]
    rw [hstart]
    by_cases ho : OwnWaits s
    · rw [if_pos (ownWaiting_iff.2 ho), if_pos ho, if_neg fun hs => nomatch hs.1]
    · rw [if_neg fun hs => ho (ownWaiting_iff.1 hs), if_neg ho]
      exact startProcessor_eq (s := setMode .normal s) h

/-- Settles O7: on a busy port the access waits, on an idle one `startArrived` decides. -/
theorem arrivingAccessStartsOrWaits : Obligations.ArrivingAccessStartsOrWaits := by
  unfold Obligations.ArrivingAccessStartsOrWaits
  intro addr write data lanes s hpin hwaiting hport hclass a m
  have hprot : isProtected s.strap a = false := by
    rcases hclass with h | h
    · simp [isProtected, a, h]
    · have hc : (a.cls s.strap).partOwned = false := h
      simp [isProtected, hc]
  have harrive : arrive a s = { s with mem := m } := by
    obtain ⟨t, ht⟩ : ∃ t, t = setMem { s.mem with waiting := some a, answer := none } s := ⟨_, rfl⟩
    have hown : OwnWaits t ↔ OwnWaits s := by rw [ht]; rfl
    have harrive : arrive a s = if s.mem.port = .idle then startArrived t else t := by
      rw [arrive, hprot, ht]
      rfl
    rw [harrive]
    simp only [m]
    by_cases hidle : s.mem.port = .idle
    · rw [if_pos hidle, if_neg (not_not.2 hidle), startArrived_eq (a := a) (by rw [ht]; rfl)]
      by_cases ho : OwnWaits s
      · rw [if_pos ho, if_pos (hown.2 ho), ht]
        by_cases hc : s.mem.mode = .normal ∧ s.mem.counter < s.params.starvation
        · rw [if_pos hc]
          exact (if_pos hc).trans (by rw [hwaiting]; rfl)
        · rw [if_neg hc]
          exact if_neg hc
      · rw [if_neg ho, if_neg fun h => ho (hown.1 h), ht, hwaiting]
        rfl
    · rw [if_neg hidle, if_pos hidle, ht]
      rfl
  rw [← harrive]
  exact exec_of_occurs rfl hpin (portFree_of hwaiting hport)

end Sys2Proof.Machine
end

section
/-! PROOFS. What each completion of an access comes to: writes, reads, write-backs, and the answers of own reads that the
configuration reading and the load take. -/

namespace Sys2Proof.Machine

set_option Elab.async false

/-! ## Accesses in flight -/

section InFlight

variable {s : State} {a : Access} {c : WordClass}

theorem inPort_of_port (h : s.mem.port = .processor a) : inPort s = some a := by rw [inPort, h]

theorem inFlightIs_of {test : Access → WordClass → Bool} (hport : s.mem.port = .processor a)
    (hcls : addrClass s.strap a.byteAddr = c) (h : test a c = true) : inFlightIs test s = true :=
  inFlightIs_iff.2 ⟨a, inPort_of_port hport, by rw [show a.cls s.strap = c from hcls]; exact h⟩

/-- A write in flight that completes: captured by the class of its word, and answered (R3, R4). -/
theorem finishWrite_eq (h : WriteAt s a c) (err : Bool) :
    finishWrite err s = finishAccess (.writeDone err) (capture a c s) := by
  obtain ⟨-, hport, -, hcls⟩ := h
  exact finishWrite_of_inPort (inPort_of_port hport) hcls err

theorem finishRead_eq (h : ReadAt s a c) (data : Word) (err : Bool) :
    finishRead data err s = finishAccess (.readDone (readData s c data) err) s := by
  obtain ⟨-, hport, -, hcls⟩ := h
  simp only [finishRead, inPort_of_port hport, show a.cls s.strap = c from hcls]

end InFlight

/-! ## Captures (R4) -/

/-- With no lane enabled a merge keeps the old word. -/
theorem mergeLanes_zero (old data : Word) : mergeLanes old data 0 = old := by
  refine BitVec.eq_of_getLsbD_eq fun b hb => ?_
  rw [getLsbD_mergeLanes _ _ _ _ hb]
  simp

/-- A word of a copy replaced by itself. -/
theorem set_getD_self (words : List Word) (k : Nat) : words.set k (words.getD k 0) = words := by
  by_cases h : k < words.length
  · simp [h]
  · exact List.set_eq_of_length_le (by omega)

theorem mergeWord_zero (words : List Word) (k : Nat) {a : Access} (h : a.lanes = 0) : mergeWord words k a = words := by
  rw [mergeWord, h, mergeLanes_zero, set_getD_self]

/-- A write of a commit word with no byte enable set captures nothing (log entry 7). -/
theorem capture_commit_zero (i : Nat) {a : Access} (h : a.lanes = 0) (s : State) : capture a (.commit i) s = s := by
  have hself : s.slots.set i (slotAt s i) = s.slots := setSlot_self i s
  simp only [capture, modSlot, setSlot, mergeWord_zero _ _ h, hself]

theorem laneByte_mergeLanes (old data : Word) (lanes : BitVec 4) {l : Nat} (hl : l < 4) :
    laneByte (mergeLanes old data lanes) l = if lanes.getLsbD l then laneByte data l else laneByte old l := by
  refine BitVec.eq_of_getLsbD_eq fun i hi => ?_
  have hlane : (8 * l + i) / 8 = l := by omega
  have hbit := getLsbD_mergeLanes old data lanes (8 * l + i) (by omega)
  rw [hlane] at hbit
  cases hen : lanes.getLsbD l <;> simp [laneByte, hi, hbit, hen]

/-- Settles O9: the capture of each class is a set of its copy, empty for a plain word and with no lane enabled. -/
theorem forwardedWritesCompleteAndAreCaptured : Obligations.ForwardedWritesCompleteAndAreCaptured := by
  unfold Obligations.ForwardedWritesCompleteAndAreCaptured
  refine ⟨fun err s a c h => ?_, fun old data lanes l hl => laneByte_mergeLanes old data lanes hl⟩
  obtain ⟨hpin, hport, hwrite, hcls⟩ := h
  have hpass : isPassThrough a c = true →
      exec (.passThroughWrite err) s = .next (settle s (finishAccess (.writeDone err) (capture a c s))) := fun ht => by
    rw [← finishWrite_eq ⟨hpin, hport, hwrite, hcls⟩]
    exact exec_of_occurs rfl hpin (inFlightIs_of hport hcls ht)
  have hcapt : isCaptured a c = true →
      exec (.capturedWrite err) s = .next (settle s (finishAccess (.writeDone err) (capture a c s))) := fun ht => by
    rw [← finishWrite_eq ⟨hpin, hport, hwrite, hcls⟩]
    exact exec_of_occurs rfl hpin (inFlightIs_of hport hcls ht)
  refine ⟨fun hc => ?_, fun k hc hk => ?_, fun k hc => ?_, fun i k hc => ?_⟩
  · obtain rfl | ⟨hlanes, rfl | ⟨i, rfl⟩⟩ := hc
    · exact hpass (by simp [isPassThrough, hwrite])
    · exact hpass (by simp [isPassThrough, hwrite, hlanes])
    · rw [hpass (by simp [isPassThrough, hwrite, hlanes]), capture_commit_zero i hlanes]
      rfl
  · subst hc
    exact hpass (by simp [isPassThrough, hwrite, maskWordIndex, hk])
  · subst hc
    exact hcapt (by simp [isCaptured, hwrite])
  · subst hc
    exact hcapt (by simp [isCaptured, hwrite])

/-- Settles O10: the drop of the write is the same effect for both rows. -/
theorem protectedWriteIsDropped : Obligations.ProtectedWriteIsDropped := by
  unfold Obligations.ProtectedWriteIsDropped
  intro addr data lanes s hpin hwaiting hport hclass
  have hprot : isProtected s.strap { addr := addr, write := true, data := data, lanes := lanes } = true := by
    simp only [isProtected, Access.cls, Access.byteAddr, Bool.true_and, hclass]
  have hfree := portFree_of hwaiting hport
  have hdropped : exec (.protectedWrite addr data lanes) s = .next (settle s (dropWrite s)) :=
    exec_of_occurs rfl hpin (by rw [occurs, hfree, hprot]; rfl)
  have harrives : exec (.processorAccessArrives addr true data lanes) s =
      .next (settle s (arrive { addr := addr, write := true, data := data, lanes := lanes } s)) :=
    exec_of_occurs rfl hpin hfree
  refine ⟨hdropped, ?_⟩
  rw [harrives, hdropped, arrive, if_pos hprot]

/-! ## The event mask (R171) -/

theorem Attention.getLsbD_writeMask_mask (data : Word) (lanes : BitVec 4) (a : Attention) {i : Nat} (h : i < 14) :
    (a.writeMask data lanes).mask.getLsbD i = if lanes.getLsbD (i / 8) then data.getLsbD i else a.mask.getLsbD i := by
  have hbit := getLsbD_mergeLanes (a.mask.setWidth 32) data lanes i (by omega)
  show ((mergeLanes (a.mask.setWidth 32) data lanes).setWidth 14).getLsbD i = _
  simp only [BitVec.getLsbD_setWidth, hbit, h, show i < 32 by omega, decide_true, Bool.true_and]

/-- The request flag of a class whose mask flag stays is kept; a class unmasked is requested if pending, one masked is not. -/
theorem Attention.getLsbD_setMask_request (m : BitVec 14) (a : Attention) {i : Nat} (h : i < 14) :
    (a.setMask m).request.getLsbD i =
      if m.getLsbD i = a.mask.getLsbD i then a.request.getLsbD i else m.getLsbD i && a.pending.getLsbD i := by
  simp only [Attention.setMask, BitVec.getLsbD_or, BitVec.getLsbD_and, BitVec.getLsbD_not, BitVec.getLsbD_xor, h, decide_true,
    Bool.true_and]
  cases m.getLsbD i <;> cases a.mask.getLsbD i <;> simp

/-- Settles O11: the mask bit by bit, and the requests by `Attention.setMask`. -/
theorem eventMaskWriteSetsRequests : Obligations.EventMaskWriteSetsRequests := by
  unfold Obligations.EventMaskWriteSetsRequests
  intro err s a h
  obtain ⟨hpin, hport, hwrite, hcls⟩ := h
  have hmask : finishMaskWrite err s =
      { finishAccess (.writeDone err) (capture a (.config 9) s) with att := s.att.writeMask a.data a.lanes } := by
    rw [← finishWrite_eq ⟨hpin, hport, hwrite, hcls⟩]
    simp only [finishMaskWrite, inPort_of_port hport]
  refine ⟨s.att.writeMask a.data a.lanes, ?_, rfl, fun i hi => ⟨Attention.getLsbD_writeMask_mask _ _ _ hi, ?_⟩⟩
  · have hexec : exec (.eventMaskWrite err) s = .next (settle s (finishMaskWrite err s)) :=
      exec_of_occurs rfl hpin (inFlightIs_of hport hcls (by simp [isMaskWrite, hwrite, maskWordIndex]))
    rw [hexec, hmask]
    rfl
  · exact Attention.getLsbD_setMask_request _ _ hi

/-- Settles O12: the three kinds of read, each by the row that it occurs in. -/
theorem readsReturnTheirWord : Obligations.ReadsReturnTheirWord := by
  unfold Obligations.ReadsReturnTheirWord
  intro data err s a
  refine ⟨fun c h hevent hfault => ?_, fun h => ?_, fun h => ?_⟩
  · obtain ⟨hpin, hport, hwrite, hcls⟩ := h
    have hexec : exec (.processorRead data err) s = .next (settle s (finishRead data err s)) :=
      exec_of_occurs rfl hpin (inFlightIs_of hport hcls (by simp [isRead, hwrite, hevent, hfault]))
    rw [hexec, finishRead_eq ⟨hpin, hport, hwrite, hcls⟩]
    rfl
  · obtain ⟨hpin, hport, hwrite, hcls⟩ := h
    exact exec_of_occurs rfl hpin (inFlightIs_of hport hcls (by simp [isReadOf, hwrite]))
  · obtain ⟨hpin, hport, hwrite, hcls⟩ := h
    exact exec_of_occurs rfl hpin (inFlightIs_of hport hcls (by simp [isReadOf, hwrite]))

/-! ## Own accesses (R12, R14, R19) -/

/-- The state in which the answer of the own read at the head is delivered (R12, R17). -/
def readTaken (rest : List ReadReq) (s : State) : State :=
  { s with mem := { s.mem with port := .idle, counter := 0, reads := rest } }

/-- The same, with the fault recorded that comes with the answer (R19). -/
def readFaulted (r : ReadReq) (rest : List ReadReq) (err : Bool) (s : State) : State :=
  if err then recordFault r.addr false r.source.fault (readTaken rest s) else readTaken rest s

section OwnRead

variable {s : State} {r : ReadReq} {rest : List ReadReq}

/-- An own read that completes is delivered to its requester. -/
theorem exec_ownReadComplete (hpin : s.resetPin = false) (hport : s.mem.port = .ownRead r) (hreads : s.mem.reads = r :: rest)
    (data : Word) (err : Bool) :
    exec (.ownReadComplete data err) s = .next (settle s (deliver r data err (readFaulted r rest err s))) := by
  have hflight : readInFlight s = some r := by rw [readInFlight, hport]
  have hfinish : finishOwnRead data err s = deliver r data err (readFaulted r rest err s) := by
    simp only [finishOwnRead, hflight, hreads, List.tail_cons]
    rfl
  rw [← hfinish]
  exact exec_of_occurs rfl hpin (by rw [occurs, hflight]; rfl)

theorem readFaulted_only (r : ReadReq) (rest : List ReadReq) (err : Bool) (s : State) :
    Only [.port, .reads, .counter, .fault, .att] s (readFaulted r rest err s) := by
  have hread : Only [.port, .reads, .counter] s (readTaken rest s) := .of_overlay rfl (ownPort := .inr (.inr rfl))
  exact hread.trans (.ite (recordFault_only _ _ _ _) (.refl _ _))

theorem deliver_load {addr : Nat} (data : Word) (err : Bool) (s : State) :
    deliver { addr := addr, source := .load } data err s = deliverLoad addr data err s := rfl

theorem deliver_fetch {addr : Nat} (data : Word) (err : Bool) (s : State) :
    deliver { addr := addr, source := .fetch } data err s = deliverFetch addr data err s := rfl

end OwnRead

/-- From `s` to `t` own reads are requested behind those that wait (R11). -/
def ReadsGrow (s t : State) : Prop := ∃ more, t.mem.reads = s.mem.reads ++ more

theorem ReadsGrow.of_same {s t : State} (h : t.mem.reads = s.mem.reads) : ReadsGrow s t := ⟨[], by rw [h, List.append_nil]⟩

theorem ReadsGrow.trans {s t u : State} (h : ReadsGrow s t) (h' : ReadsGrow t u) : ReadsGrow s u := by
  obtain ⟨m, h⟩ := h
  obtain ⟨m', h'⟩ := h'
  exact ⟨m ++ m', by rw [h', h, List.append_assoc]⟩

/-- A frame without the request list. -/
theorem ReadsGrow.of_only {fs : List Leaf} {s t : State} (h : Only fs s t) (hf : fs.contains .reads = false := by rfl) :
    ReadsGrow s t := .of_same (h.same .reads hf)

theorem beginFetches_grows (n : Nat) (s : State) : ReadsGrow s (beginFetches n s) := by
  induction n generalizing s with
  | zero => exact .of_same rfl
  | succ n ih =>
    unfold beginFetches
    split
    · exact .of_same rfl
    · split
      · exact .of_same rfl
      · simp only
        split
        · exact (ReadsGrow.of_only ((withFetch_only _ s).trans (finishFetch_only _ _))).trans (ih _)
        · exact ⟨_, rfl⟩

theorem endFetch_grows (e : FetchEnd) (s : State) : ReadsGrow s (endFetch e s) :=
  (ReadsGrow.of_only (finishFetch_only e s)).trans (beginFetches_grows _ _)

theorem nextSlot_grows (i : Nat) (s : State) : ReadsGrow s (nextSlot i s) := by
  unfold nextSlot
  split
  · exact ⟨_, rfl⟩
  · exact .of_only (loadDone_only s)

/-- The requester of a failed own read may ask anew (R42, R159). -/
theorem deliver_failed_grows (r : ReadReq) (data : Word) (s : State) : ReadsGrow s (deliver r data true s) := by
  unfold deliver
  split
  · unfold deliverLoad
    split
    · exact .of_same rfl
    · exact .of_only ((halt_only s).trans (complete_only _ _ _ _))
    · exact (ReadsGrow.of_only (loadOutcome_only _ _ s)).trans (nextSlot_grows _ _)
  · unfold deliverFetch
    split
    · exact beginFetches_grows _ { s with notices := { s.notices with orphan := false } }
    · split
      · exact .of_same rfl
      · exact endFetch_grows _ s

/-- Settles O13: the write-back by cases on the change held against it; the failed read by the frame of its delivery. -/
theorem ownAccessCompletes : Obligations.OwnAccessCompletes := by
  unfold Obligations.OwnAccessCompletes
  constructor
  · intro err s o data changed rest hpin hport hset m
    have hflight : writeBackInFlight s = some o := by rw [writeBackInFlight, hport]
    have hexec : exec (.writeBackComplete err) s = .next (settle s (finishWriteBack err s)) :=
      exec_of_occurs rfl hpin (by rw [occurs, hflight]; rfl)
    have hm : { s.mem with port := .idle, writeBacks := afterWriteBack s.mem.writeBacks, counter := 0 } = m := by
      rw [hset]
      rfl
    have hfinish : finishWriteBack err s =
        if err then recordFault (strapBase s.strap + o) true .writeback { s with mem := m } else { s with mem := m } := by
      simp only [finishWriteBack, hflight, ← hm]
      rfl
    rw [hexec, hfinish]
    constructor
    · rintro rfl
      rfl
    · rintro rfl
      rfl
  · intro data s r rest hpin hport hreads
    obtain ⟨u, hu⟩ : ∃ u, u = readFaulted r rest true s := ⟨_, rfl⟩
    have hdeliver := deliver_only r data true u
    have hport' : (deliver r data true u).mem.port = u.mem.port := hdeliver.same .port
    have hcounter : (deliver r data true u).mem.counter = u.mem.counter := hdeliver.same .counter
    have hfault : (deliver r data true u).mem.fault = u.mem.fault := hdeliver.same .fault
    obtain ⟨more, hmore⟩ := deliver_failed_grows r data u
    refine ⟨_, exec_ownReadComplete hpin hport hreads data true, ?_⟩
    rw [← hu]
    refine ⟨hport'.trans (by rw [hu]; rfl), hcounter.trans (by rw [hu]; rfl), ⟨more, hmore.trans (by rw [hu]; rfl)⟩, ?_,
      hfault.trans (by rw [hu]; rfl)⟩
    exact IsPending.of_flags (s := u) (by rw [hu]; exact isPending_pend .memoryFault _) (hdeliver.same .flags)

/-! ## Answers that the configuration reading and the load take -/

theorem deliverLoad_config {s : State} {answers : List Word} (h : s.part.reading = .config answers) (addr : Nat) (data : Word)
    (err : Bool) : deliverLoad addr data err s = configAnswer answers addr data err s := by
  rw [deliverLoad, h]

theorem deliverLoad_table {s : State} {i k : Nat} (h : s.part.reading = .table i k) (addr : Nat) (data : Word) (err : Bool) :
    deliverLoad addr data err s = tableAnswer i k data err s := by
  rw [deliverLoad, h]

theorem readFaulted_reading (r : ReadReq) (rest : List ReadReq) (err : Bool) (s : State) :
    (readFaulted r rest err s).part.reading = s.part.reading := (readFaulted_only r rest err s).same .reading

/-- Settles O15: an answer before the last of its kind is kept, and the next word requested. -/
theorem ownReadAnswerIsTaken : Obligations.OwnReadAnswerIsTaken := by
  unfold Obligations.OwnReadAnswerIsTaken
  intro data s addr rest hpin hport hreads asked
  rw [exec_ownReadComplete hpin hport hreads data false, deliver_load]
  refine ⟨fun answers hreading hlen => ?_, fun i k hreading hk => ?_⟩
  · rw [deliverLoad_config ((readFaulted_reading _ _ _ _).trans hreading), configAnswer, if_neg (by decide), if_pos hlen]
    rfl
  · have haddr : tableAddr s.strap i (k + 1) =
        strapBase s.strap + 0x1000 + 32 * i + (if k = 4 then 28 else 4 * (k + 1)) := by
      simp [tableAddr]
    rw [deliverLoad_table ((readFaulted_reading _ _ _ _).trans hreading), tableAnswer, if_neg (by decide), if_pos hk, ← haddr]
    rfl

/-! ## A configuration reading that fails -/

/-- From `u` to `t` a command in execution completes with this status and these results; with none in execution the command area
stays (R168). -/
def CompletesWith (p : Primary) (q : Secondary) (results : List Word) (u t : State) : Prop :=
  (∀ words, u.cmd.exec = some words → t.cmd = { u.cmd with
    exec := none, count := u.cmd.count + 1, response := responseHead words p q :: resultWords results }) ∧
    (u.cmd.exec = none → t.cmd = u.cmd)

theorem complete_completesWith (p : Primary) (q : Secondary) (results : List Word) (s : State) :
    CompletesWith p q results s (complete p q results s) := by
  refine ⟨fun words h => ?_, fun h => ?_⟩
  · rw [complete_some p q results s words h]
  · rw [complete_none p q results s h]

theorem complete_eq (p : Primary) (q : Secondary) (results : List Word) (s : State) :
    complete p q results s =
      { s with cmd := (complete p q results s).cmd, att := (complete p q results s).att } := by
  cases h : s.cmd.exec with
  | none => rw [complete_none p q results s h]
  | some words => rw [complete_some p q results s words h]

/-- The part is halted, and the command in execution completes FAILED (R173, R176, R177): what `FailedConfigurationHalts` says, of
a state `v` that the answer of the own read has led to. -/
theorem settle_halted {s v : State} {m : MemPath} {part : Part} {att : Attention}
    (hv : v = { s with mem := m, part := part, att := att }) (q : Secondary) (results : List Word) :
    let t := settle s (complete .failed q results (halt v))
    t.part = { v.part with state := .halted, reading := .idle } ∧ IsPending .started t ∧ t.mem.reads = v.mem.reads ∧
      CompletesWith .failed q results s t ∧
      t = { s with mem := t.mem, part := t.part, att := t.att, cmd := t.cmd,
                   cues := { s.cues with busyTimer := t.cues.busyTimer } } := by
  intro t
  have hcomplete := complete_eq .failed q results (halt v)
  have hframe := complete_only .failed q results (halt v)
  have hcompletes := complete_completesWith .failed q results (halt v)
  have hpart : t.part = (halt v).part := by show (complete _ _ _ _).part = _; rw [hcomplete]
  have hreads : t.mem.reads = v.mem.reads := hframe.same .reads
  have hpending : IsPending .started t :=
    IsPending.of_flags (s := halt v) (t := complete .failed q results (halt v)) (isPending_pend .started _) (hframe.same .flags)
  have hcmd : (halt v).cmd = s.cmd := by rw [hv]; rfl
  refine ⟨hpart, hpending, hreads, ?_, ?_⟩
  · unfold CompletesWith at hcompletes ⊢
    rwa [hcmd] at hcompletes
  · obtain ⟨m', part', att', cmd', h⟩ : ∃ m' part' att' cmd', complete .failed q results (halt v) =
        { s with mem := m', part := part', att := att', cmd := cmd' } := ⟨_, _, _, _, by rw [complete_eq, hv]; rfl⟩
    simp only [t, h]
    rfl

/-- Settles O16: by a fault or by the words judged, the part is halted and the command in execution completes. -/
theorem failedConfigurationHalts : Obligations.FailedConfigurationHalts := by
  unfold Obligations.FailedConfigurationHalts
  intro data err s addr rest answers hpin hport hreads hreading hfails
  have hexec := exec_ownReadComplete hpin hport hreads data err
  rw [deliver_load, deliverLoad_config ((readFaulted_reading _ _ _ _).trans hreading)] at hexec
  cases err with
  | true =>
    rw [configAnswer, if_pos rfl] at hexec
    obtain ⟨hpart, hpending, hreads', ⟨hsome, hnone⟩, heq⟩ :=
      settle_halted (s := s) (v := readFaulted { addr := addr, source := .load } rest true s) rfl .memoryFault [resultOf addr]
    exact ⟨_, hexec, by rw [hpart], by rw [hpart], hpending, hreads', by rw [hpart]; rfl, by rw [hpart]; rfl, hsome, hnone, heq⟩
  | false =>
    obtain ⟨hlen, hlayout⟩ := hfails.resolve_left (by decide)
    have hvalid : ¬configValid s.strap (paramsOf (answers ++ [data])) = true := fun h =>
      hlayout (configValid_iff.1 h)
    have htaken : readFaulted { addr := addr, source := .load } rest false s = readTaken rest s := rfl
    rw [htaken, configAnswer, if_neg (by decide), if_neg (by omega), judge, show (readTaken rest s).strap = s.strap from rfl,
      if_neg hvalid] at hexec
    obtain ⟨hpart, hpending, hreads', ⟨hsome, hnone⟩, heq⟩ :=
      settle_halted (s := s) (v := setClamped (configClamped (answers ++ [data])) (readTaken rest s)) rfl .configInvalid
        [resultOf (bitOf (configClamped (answers ++ [data])))]
    exact ⟨_, hexec, by rw [hpart], by rw [hpart], hpending, hreads', by rw [hpart]; rfl, by rw [hpart]; rfl, hsome, hnone, heq⟩

end Sys2Proof.Machine
end

section
/-! PROOFS. The end of an event (R13, R14, R148): which words it marks, and what several marks make of the write-back set. -/

namespace Sys2Proof.Machine

set_option Elab.async false

/-! ## The words marked -/

/-- The content of the word at an offset is the same in both states, as far as its mark goes (R13, R61, R168). -/
def SameWord (s t : State) (o : Nat) : Prop :=
  match classOf o with
  | .response _ => s.cmd.count = t.cmd.count
  | .clock => s.clock.t / 60 = t.clock.t / 60 ∧ s.clock.state = t.clock.state ∧ s.clock.source = t.clock.source ∧
      (s.clock.slew = 0 ↔ t.clock.slew = 0) ∧ s.clock.roll = t.clock.roll
  | c => partWord s c = partWord t c

theorem clockMarkKey_eq_iff (c d : Clock) :
    clockMarkKey c = clockMarkKey d ↔
      c.t / 60 = d.t / 60 ∧ c.state = d.state ∧ c.source = d.source ∧ (c.slew = 0 ↔ d.slew = 0) ∧ c.roll = d.roll := by
  simp [clockMarkKey, Clock.minute]

theorem changedBy_iff (s t : State) (o : Nat) : changedBy s t o = true ↔ ¬SameWord s t o := by
  unfold changedBy SameWord
  cases classOf o <;> simp only [ne_eq, decide_eq_true_eq, clockMarkKey_eq_iff]

/-- The part's words do not show the busy timer. -/
theorem partWord_tendBusyTimer (t : State) (c : WordClass) : partWord (tendBusyTimer t) c = partWord t c := by
  cases c <;> rfl

theorem markedBy_tendBusyTimer (s t : State) : markedBy s (tendBusyTimer t) = markedBy s t := by
  unfold markedBy
  refine congrArg (fun p => List.filter p writtenBack) (funext fun o => ?_)
  unfold marksWord changedBy
  simp only [partWord_tendBusyTimer]
  rfl

theorem pairwise_markedBy (s t : State) : (markedBy s t).Pairwise (· < ·) := pairwise_writtenBack.filter _

/-! ## Several marks -/

/-- The set before the words that join it: the word in flight holds a mark as a change since start (R14). -/
def keptEntries (os : List Nat) (m : MemPath) : List WbEntry :=
  match m.port, m.writeBacks with
  | .writeBack _ _, e :: rest => { e with changed := e.changed || os.contains e.offset } :: rest
  | _, set => set

/-- The words of a list that are not in the set. -/
def newEntries (os : List Nat) (m : MemPath) : List WbEntry :=
  (os.filter fun o => !m.writeBacks.any fun e => decide (e.offset = o)).map fun o => { offset := o, changed := false }

/-- A mark is held against the word in flight, changes nothing for another word of the set, or joins it at the tail. -/
theorem mark_cases (m : MemPath) (o : Nat) :
    (∃ off data e rest, m.port = .writeBack off data ∧ m.writeBacks = e :: rest ∧ e.offset = o ∧
      m.mark o = { m with writeBacks := { e with changed := true } :: rest }) ∨
    (o ∈ m.writeBacks.map (·.offset) ∧ (∀ off data e rest, m.port = .writeBack off data → m.writeBacks = e :: rest → e.offset ≠ o) ∧
      m.mark o = m) ∨
    (o ∉ m.writeBacks.map (·.offset) ∧ m.mark o = { m with writeBacks := m.writeBacks ++ [{ offset := o, changed := false }] }) := by
  have hany : ∀ es : List WbEntry, (es.any fun x => decide (x.offset = o)) = true ↔ o ∈ es.map (·.offset) := by
    simp
  unfold MemPath.mark
  split
  · rename_i off data e rest hport hset
    by_cases he : e.offset = o
    · exact .inl ⟨off, data, e, rest, hport, hset, he, by rw [if_pos he]⟩
    · rw [if_neg he]
      refine .inr ?_
      by_cases hrest : o ∈ rest.map (·.offset)
      · rw [if_pos ((hany rest).2 hrest)]
        refine .inl ⟨by rw [hset]; exact List.mem_cons_of_mem _ hrest, fun _ _ e' rest' _ hset' => ?_, rfl⟩
        rw [hset] at hset'
        obtain ⟨rfl, -⟩ := List.cons.inj hset'
        exact he
      · rw [if_neg fun h => hrest ((hany rest).1 h)]
        refine .inr ⟨?_, rfl⟩
        rw [hset]
        simp only [List.map_cons, List.mem_cons, not_or]
        exact ⟨Ne.symm he, hrest⟩
  · rename_i hno
    refine .inr ?_
    by_cases hmem : o ∈ m.writeBacks.map (·.offset)
    · rw [if_pos ((hany _).2 hmem)]
      exact .inl ⟨hmem, fun off data e rest hport hset => (hno off data e rest hport hset).elim, rfl⟩
    · rw [if_neg fun h => hmem ((hany _).1 h)]
      exact .inr ⟨hmem, rfl⟩

theorem any_offset_iff (es : List WbEntry) (o : Nat) :
    (es.any fun e => decide (e.offset = o)) = true ↔ o ∈ es.map (·.offset) := by
  simp

/-- A word of the set is not new. -/
theorem newEntries_cons_of_mem {o : Nat} {m : MemPath} (h : o ∈ m.writeBacks.map (·.offset)) (os : List Nat) :
    newEntries (o :: os) m = newEntries os m := by
  rw [newEntries, List.filter_cons, (any_offset_iff _ _).2 h]
  rfl

theorem newEntries_cons_of_not_mem {o : Nat} {m : MemPath} (h : o ∉ m.writeBacks.map (·.offset)) (os : List Nat) :
    newEntries (o :: os) m = { offset := o, changed := false } :: newEntries os m := by
  rw [newEntries, List.filter_cons, Bool.eq_false_iff.2 fun h' => h ((any_offset_iff _ _).1 h')]
  rfl

/-- Which words are new depends on the words of the set alone. -/
theorem newEntries_congr {os : List Nat} {m m' : MemPath}
    (h : ∀ o ∈ os, o ∈ m'.writeBacks.map (·.offset) ↔ o ∈ m.writeBacks.map (·.offset)) : newEntries os m' = newEntries os m := by
  unfold newEntries
  refine congrArg _ (List.filter_congr fun o ho => ?_)
  rw [Bool.not_inj_iff, Bool.eq_iff_iff, any_offset_iff, any_offset_iff]
  exact h o ho

/-- The set keeps its entries but for the change since start of the one in flight. -/
theorem keptEntries_eq {os : List Nat} {m : MemPath}
    (h : ∀ off data e rest, m.port = .writeBack off data → m.writeBacks = e :: rest → e.offset ∉ os) :
    keptEntries os m = m.writeBacks := by
  unfold keptEntries
  split
  · rename_i off data e rest hport hset
    have hnot : os.contains e.offset = false := by simpa using h off data e rest hport hset
    rw [hset, hnot, Bool.or_false]
  · rfl

/-- Distinct words marked one after another (R13, R14). -/
theorem foldl_mark_writeBacks {os : List Nat} (hnodup : os.Nodup) (m : MemPath) :
    (os.foldl MemPath.mark m).writeBacks = keptEntries os m ++ newEntries os m := by
  induction os generalizing m with
  | nil => exact (List.append_nil _).symm.trans (by rw [keptEntries_eq fun _ _ _ _ _ _ => List.not_mem_nil]; rfl)
  | cons o os ih =>
    obtain ⟨ho, hos⟩ := List.nodup_cons.1 hnodup
    rw [List.foldl_cons, ih hos]
    obtain ⟨off, data, e, rest, hport, hset, he, hmark⟩ | ⟨hmem, hhead, hmark⟩ | ⟨hmem, hmark⟩ := mark_cases m o
    · have hmem : o ∈ m.writeBacks.map (·.offset) := by simp [hset, he]
      rw [hmark, newEntries_cons_of_mem hmem, newEntries_congr (m := m) (by simp [hset])]
      simp [keptEntries, hport, hset, he]
    · rw [hmark, newEntries_cons_of_mem hmem]
      refine congrArg (· ++ _) ?_
      unfold keptEntries
      split
      · rename_i off data e rest hport hset
        have hne := hhead off data e rest hport hset
        simp [hne]
      · rfl
    · have hkept : keptEntries os { m with writeBacks := m.writeBacks ++ [{ offset := o, changed := false }] } =
          keptEntries (o :: os) m ++ [{ offset := o, changed := false }] := by
        unfold keptEntries
        cases m.port with
        | writeBack off data =>
          cases hset : m.writeBacks with
          | nil => simp [ho]
          | cons e rest =>
            have hne : e.offset ≠ o := by
              rintro rfl
              simp [hset] at hmem
            simp [hne]
        | _ => rfl
      have hnew : newEntries os { m with writeBacks := m.writeBacks ++ [{ offset := o, changed := false }] } = newEntries os m :=
        newEntries_congr fun o' ho' => by
          have hne : o' ≠ o := fun h => ho (h ▸ ho')
          simp [hne]
      rw [hmark, hkept, hnew, newEntries_cons_of_not_mem hmem, List.append_assoc, List.singleton_append]

/-! ## The end of an event -/

theorem busyTimed_eq (t : State) :
    busyTimed t = match t.cues.link with
      | .speaking => true
      | .ready => t.cues.busyIn && decide (t.params.linkMode ≠ .timed) && t.cues.queue.any (eligible t)
      | _ => false := by
  unfold busyTimed
  cases t.cues.link <;> rfl

theorem settle_eq (s t : State) :
    settle s t = { t with
      mem := { t.mem with
        noted := s.mem.noted
        writeBacks := keptEntries (markedBy s t) t.mem ++ newEntries (markedBy s t) t.mem }
      cues := { t.cues with busyTimer := if busyTimed t then t.cues.busyTimer.or (some t.params.busyLimit) else none } } := by
  have hnodup : (markedBy s t).Nodup := (pairwise_markedBy s t).imp fun h => Nat.ne_of_lt h
  rw [settle, markWords, markedBy_tendBusyTimer, ← foldl_mark_writeBacks hnodup]
  rfl

/-- Settles O3: `settle_eq`, with what the marked words are. -/
theorem settleMarksAndTends : Obligations.SettleMarksAndTends := by
  unfold Obligations.SettleMarksAndTends
  intro s t same timed
  have hmem : ∀ o, o ∈ markedBy s t ↔ o ∈ writtenBack ∧ (¬same o ∨ o ∈ t.mem.noted.drop s.mem.noted.length) := fun o => by
    rw [mem_markedBy, changedBy_iff]
    rfl
  have htimed : timed = busyTimed t := (busyTimed_eq t).symm
  refine ⟨markedBy s t, pairwise_markedBy s t, hmem, ?_⟩
  rw [settle_eq, htimed]
  rfl

end Sys2Proof.Machine
end

section
/-! PROOFS. Commands that are taken: what a completion says of the state it leaves, and the commands of the Time Base and the Command
Area Unit. -/

namespace Sys2Proof.Machine

set_option Elab.async false

/-! ## Taking and completing a command -/

section Taken

variable {s : State} {a : Access} {code : Nat}

/-- A trigger that is taken in RUNNING hands its command to its block (R166, R167). -/
theorem exec_of_taken {c : Instr} {act : List Word → State → State} (err : Bool) (h : TakenAt s a code)
    (hocc : occurs c s = triggers code s) (heff : effect c s = handTrigger whenRunning act err s)
    (hc : Instr.isReset c = false := by rfl) :
    exec c s = .next (settle s (act s.cmd.staging (commandTaken err s))) := by
  obtain ⟨htrigger, hexec, hrunning⟩ := h
  have hpin : s.resetPin = false := htrigger.1.1
  rw [exec_of_occurs hc hpin (hocc.trans (triggers_of_triggerAt htrigger)), heff,
    handTrigger_eq_act act err htrigger hexec (by rw [hrunning]; rfl)]

end Taken

/-- `u` is `w` with another Memory Path, command area and flags: what taking a command changes. -/
def TakenFrom (w u : State) : Prop := u = { w with mem := u.mem, cmd := u.cmd, att := u.att }

theorem takenFrom_commandTaken (err : Bool) (s : State) : TakenFrom s (commandTaken err s) := rfl

/-- The state `u`, which a block has led to from the command it was handed in `s`, with its command still in execution and these
events pended since. -/
structure Executing (err : Bool) (events : List EventClass) (s u : State) : Prop where
  cmd : u.cmd = { s.cmd with exec := some s.cmd.staging }
  mem : ∃ noted, u.mem = { s.mem.answered (.writeDone err) with noted := noted }
  att : u.att = s.att.after (takenEvents s ++ events)

theorem executing_commandTaken (err : Bool) (s : State) : Executing err [] s (commandTaken err s) :=
  ⟨rfl, ⟨_, rfl⟩, by rw [List.append_nil]; rfl⟩

/-- The same for a state that differs outside what taking a command changes. -/
theorem Executing.of_eq {err : Bool} {events : List EventClass} {s u v : State} (h : Executing err events s u)
    (hcmd : v.cmd = u.cmd) (hmem : v.mem = { u.mem with noted := v.mem.noted }) (hatt : v.att = u.att) :
    Executing err events s v := by
  obtain ⟨noted, hm⟩ := h.mem
  exact ⟨hcmd.trans h.cmd, ⟨v.mem.noted, by rw [hmem, hm]⟩, hatt.trans h.att⟩

theorem after_append (es es' : List EventClass) (a : Attention) : a.after (es ++ es') = (a.after es).after es' :=
  List.foldl_append

theorem Executing.pend {err : Bool} {events : List EventClass} {s u : State} (h : Executing err events s u) (e : EventClass) :
    Executing err (events ++ [e]) s (pend e u) :=
  ⟨h.cmd, h.mem, by
    rw [← List.append_assoc, after_append _ [e], ← h.att]
    rfl⟩

/-- The command completes and the event ends: its answer, its flags, and nothing else but what its block did. -/
theorem settle_complete {err : Bool} {events : List EventClass} {s u w : State} (h : Executing err events s u)
    (hw : TakenFrom w u) (p : Primary) (q : Secondary) (results : List Word) :
    let t := settle s (complete p q results u)
    Answered err p q (resultWords results) s t ∧ t.att = s.att.after (takenEvents s ++ (events ++ [.commandDone])) ∧
      OnlyCommand w t := by
  intro t
  obtain ⟨noted, hmem⟩ := h.mem
  have hcomplete := complete_some p q results u s.cmd.staging (by rw [h.cmd])
  obtain ⟨m, c, at', hu⟩ : ∃ m c at', complete p q results u = { w with mem := m, cmd := c, att := at' } :=
    ⟨_, _, _, by rw [complete_eq, hw]⟩
  refine ⟨⟨?_, ?_⟩, ?_, ?_⟩
  · show (complete p q results u).cmd = _
    rw [hcomplete]
    simp only [h.cmd]
  · have hcm : (complete p q results u).mem = u.mem := by rw [hcomplete]
    have hanswered : ∀ set, ({ u.mem with writeBacks := set, noted := s.mem.noted } : MemPath) =
        { s.mem with port := .idle, answer := some (.writeDone err), writeBacks := set } := fun set => by
      rw [hmem]
      rfl
    rw [← hanswered, ← hcm]
    rfl
  · show (complete p q results u).att = _
    rw [hcomplete, ← List.append_assoc, after_append _ [EventClass.commandDone], ← h.att]
    rfl
  · simp only [t, OnlyCommand, hu]
    rfl

/-- A refusal, with every result 0. -/
theorem settle_refuse (err : Bool) (q : Secondary) (s : State) :
    RefusedAt err q s (settle s (refuse q (commandTaken err s))) :=
  settle_complete (executing_commandTaken err s) (takenFrom_commandTaken err s) .refused q []

/-! ## Marks of one drop -/

/-- A mark reads and changes the display link alone. -/
theorem joinMark_eq (m : Mark) (s : State) : joinMark m s = { s with display := (joinMark m s).display } := by
  obtain ⟨marks, seq, h⟩ := joinMark_frame m s
  rw [h]

theorem joinMark_display {s t : State} (m : Mark) (h : t.display = s.display) :
    (joinMark m t).display = (joinMark m s).display := by
  have hdrop : dropAt t m.drop = dropAt s m.drop := by simp only [dropAt, h]
  unfold joinMark
  rw [hdrop, h]
  split
  · exact h
  · split <;> rfl

/-- A mark without a causing slot is treated as it is, also in HOLD (R101). -/
theorem handMark_of_cause {m : Mark} (h : m.cause = none) (s : State) : handMark m s = joinMark m s := by
  simp only [handMark, h]

theorem handMark_clockMark (s t : State) : handMark (clockMark s) t = joinMark (markFor s.params.clockDrop true none) t :=
  handMark_of_cause rfl t

/-! ## SET SOURCE (R58) -/

theorem changeSource_eq (src : ClockSource) (s : State) :
    changeSource src s = pend .clockChange { s with
      clock := s.clock.withSource src
      display := if (s.clock.withSource src).state = s.clock.state then s.display
        else (joinMark (markFor s.params.clockDrop true none) s).display } := by
  by_cases h : (s.clock.withSource src).state = s.clock.state
  · exact (if_pos h).trans (by rw [if_pos h])
  · refine (if_neg h).trans ?_
    obtain ⟨t, ht⟩ : ∃ t, t = pend .clockChange { s with clock := s.clock.withSource src } := ⟨_, rfl⟩
    have hdisplay : (joinMark (markFor s.params.clockDrop true none) t).display =
        (joinMark (markFor s.params.clockDrop true none) s).display := joinMark_display _ (by rw [ht]; rfl)
    rw [if_neg h, ← ht, handMark_clockMark, joinMark_eq, show t.params = s.params by rw [ht]; rfl, hdisplay, ht]
    rfl

/-- Settles O32: a refusal, a completion at once, or a completion after `changeSource`. -/
theorem setSourceReplacesTheSource : Obligations.SetSourceReplacesTheSource := by
  unfold Obligations.SetSourceReplacesTheSource
  intro err s a h code previous results c
  have hexec := exec_of_taken (c := .setSource err) (act := setSourceCommand) err h rfl rfl
  have hprevious : s.clock.source.code = previous := by
    simp only [previous]
    cases s.clock.source <;> rfl
  refine ⟨_, hexec, fun hcode => ?_, fun hcode hsame => ?_, fun hcode hdiff => ?_⟩
  · have hact : setSourceCommand s.cmd.staging (commandTaken err s) = refuse .badParameter (commandTaken err s) := if_pos hcode
    rw [hact]
    exact settle_refuse err _ s
  · have hact : setSourceCommand s.cmd.staging (commandTaken err s) =
        completeDone [resultOf s.clock.source.code] (commandTaken err s) :=
      (if_neg (Nat.not_lt_of_le hcode)).trans (if_pos hsame)
    rw [hact, hprevious]
    exact settle_complete (executing_commandTaken err s) (takenFrom_commandTaken err s) .done .none [resultOf previous]
  · have hact : setSourceCommand s.cmd.staging (commandTaken err s) =
        completeDone [resultOf s.clock.source.code] (changeSource (sourceOf code) (commandTaken err s)) :=
      (if_neg (Nat.not_lt_of_le hcode)).trans (if_neg hdiff)
    have hclock : s.clock.withSource (sourceOf code) = c := by
      have hset : setState (sourceOf code) = if code = 0 then .running else .freerun := by
        obtain h | h | h : code = 0 ∨ code = 1 ∨ code = 2 := by omega
        all_goals rw [h]; rfl
      simp only [Clock.withSource, hset, c]
    rw [hact, hprevious, changeSource_eq, show (commandTaken err s).clock = s.clock from rfl, hclock,
      joinMark_display (s := s) _ (t := commandTaken err s) rfl]
    have hexecuting : Executing err [] s { commandTaken err s with
        clock := c
        display := if c.state = s.clock.state then s.display
          else (joinMark (markFor s.params.clockDrop true none) s).display } :=
      (executing_commandTaken err s).of_eq rfl rfl rfl
    exact settle_complete (w := { s with
      clock := c
      display := if c.state = s.clock.state then s.display
        else (joinMark (markFor s.params.clockDrop true none) s).display }) (hexecuting.pend .clockChange) rfl .done .none
      [resultOf previous]

end Sys2Proof.Machine
end

section
/-! PROOFS. The Frame Scheduler and the probe list: STEP FRAME, the choice of a frame, and the requests for probes. -/

namespace Sys2Proof.Machine

set_option Elab.async false

/-! ## The first of a list that fits -/

/-- In an ascending list the first that fits is the least that does. -/
theorem find?_eq_some_of_least {l : List Nat} {p : Nat → Bool} {d : Nat} (hl : l.Pairwise (· < ·)) (hd : d ∈ l) (hp : p d = true)
    (hleast : ∀ b ∈ l, p b = true → d ≤ b) : l.find? p = some d := by
  induction l with
  | nil => cases hd
  | cons x xs ih =>
    obtain ⟨hx, hxs⟩ := List.pairwise_cons.1 hl
    by_cases hfit : p x = true
    · have hle := hleast x List.mem_cons_self hfit
      have hdx : d = x := by
        obtain rfl | hmem := List.mem_cons.1 hd
        · rfl
        · exact absurd (hx d hmem) (Nat.not_lt_of_le hle)
      rw [List.find?_cons_of_pos hfit, hdx]
    · have hmem : d ∈ xs := by
        obtain rfl | hmem := List.mem_cons.1 hd
        · exact absurd hp hfit
        · exact hmem
      rw [List.find?_cons_of_neg hfit]
      exact ih hxs hmem fun b hb => hleast b (List.mem_cons_of_mem x hb)

/-- The least of an ascending list stands at its head. -/
theorem head?_eq_some_of_least {l : List Nat} {d : Nat} (hl : l.Pairwise (· < ·)) (hd : d ∈ l) (hleast : ∀ b ∈ l, d ≤ b) :
    l.head? = some d := by
  cases l with
  | nil => cases hd
  | cons x xs =>
    obtain rfl | hmem := List.mem_cons.1 hd
    · rfl
    · exact absurd ((List.pairwise_cons.1 hl).1 d hmem) (Nat.not_lt_of_le (hleast x List.mem_cons_self))

/-- Where none fits, the first that does not fit is the head. -/
theorem find?_or_find?_not {α : Type} (p : α → Bool) (l : List α) :
    (l.find? p).or (l.find? fun x => !p x) = (l.find? p).or l.head? := by
  cases l with
  | nil => rfl
  | cons x xs => cases h : p x <;> simp [h]

/-! ## The choice of a mark -/

theorem oldestMark_urgent (s : State) : oldestMark true s = s.display.marks.find? fun m => m.urgent := by
  simp only [oldestMark, Bool.decide_eq_true]

theorem oldestMark_routine (s : State) : oldestMark false s = s.display.marks.find? fun m => !m.urgent := by
  simp only [oldestMark, Bool.decide_eq_false]

theorem stepMark_eq (s : State) : stepMark s =
    (s.display.marks.find? fun m => m.urgent).or (s.display.marks.find? fun m => !m.urgent) := by
  rw [stepMark, oldestMark_urgent, oldestMark_routine]

theorem choose_mark {s : State} {m : Mark} (hmode : s.display.mode ≠ .freeze) (hm : oldestMark true s = some m)
    (holder : ∀ p, s.display.probes.head? = some p → m.seq < p.seq) : choose s = some (.mark m) := by
  have hchoice : olderOf (oldestMark true s) s.display.probes.head? = some (.mark m) := by
    rw [hm]
    cases hp : s.display.probes.head? with
    | none => rfl
    | some p => exact if_pos (holder p hp)
  unfold choose
  split
  · rw [hchoice, Option.some_or]
  · exact hchoice
  · exact absurd ‹_› hmode

theorem choose_probe {s : State} {p : Probe} (hp : s.display.probes.head? = some p)
    (holder : s.display.mode = .freeze ∨ ∀ m, oldestMark true s = some m → p.seq ≤ m.seq) : choose s = some (.probe p) := by
  have hchoice : s.display.mode ≠ .freeze → olderOf (oldestMark true s) s.display.probes.head? = some (.probe p) := by
    intro hmode
    rw [hp]
    cases hm : oldestMark true s with
    | none => rfl
    | some m => exact if_neg (Nat.not_lt_of_le (holder.resolve_left hmode m hm))
  unfold choose
  split <;> rename_i hmode
  · rw [hchoice (by simp [hmode]), Option.some_or]
  · exact hchoice (by simp [hmode])
  · rw [hp]
    rfl

theorem choose_routine {s : State} {m : Mark} (hmode : s.display.mode = .run) (hurgent : oldestMark true s = none)
    (hprobe : s.display.probes.head? = none) (hm : oldestMark false s = some m) : choose s = some (.mark m) := by
  simp only [choose, hmode, hurgent, hprobe, hm, olderOf, Option.none_or, Option.map_some]

theorem choose_none {s : State} (hprobe : s.display.probes.head? = none)
    (h : s.display.mode = .freeze ∨ oldestMark true s = none ∧ (s.display.mode = .hold ∨ oldestMark false s = none)) :
    choose s = none := by
  unfold choose
  split <;> rename_i hmode <;> rw [hmode] at h
  · obtain h | ⟨hurgent, h | hroutine⟩ := h
    · cases h
    · cases h
    · rw [hurgent, hprobe, hroutine]
      rfl
  · obtain h | ⟨hurgent, -⟩ := h
    · cases h
    · rw [hurgent, hprobe]
      rfl
  · rw [hprobe]
    rfl

/-! ## STEP FRAME (R105) -/

theorem serveStep_some {s : State} {m : Mark} (hstep : s.display.step = .waiting) (hframe : s.display.frame = none)
    (hm : stepMark s = some m) :
    serveStep s = sendMark m true { s with display := { s.display with step := .sending } } := by
  rw [serveStep, if_pos ⟨hstep, hframe⟩, hm]

theorem serveStep_none {s : State} (hstep : s.display.step = .waiting) (hframe : s.display.frame = none)
    (hm : stepMark s = none) :
    serveStep s = completeDone [255, 0] { s with display := { s.display with step := .none } } := by
  rw [serveStep, if_pos ⟨hstep, hframe⟩, hm]

theorem stepFrameCommand_busy {s : State} (hmode : s.display.mode ≠ .run) (hframe : s.display.frame ≠ none) :
    stepFrameCommand s = { s with display := { s.display with step := .waiting } } :=
  (if_neg hmode).trans (if_neg fun h => hframe h.2)

theorem stepFrameCommand_none {s : State} (hmode : s.display.mode ≠ .run) (hframe : s.display.frame = none)
    (hm : stepMark s = none) :
    stepFrameCommand s = completeDone [255, 0] { s with display := { s.display with step := .none } } :=
  (if_neg hmode).trans (serveStep_none rfl hframe hm)

theorem stepFrameCommand_some {s : State} {m : Mark} (hmode : s.display.mode ≠ .run) (hframe : s.display.frame = none)
    (hm : stepMark s = some m) :
    stepFrameCommand s = sendMark m true { s with display := { s.display with step := .sending } } :=
  (if_neg hmode).trans (serveStep_some rfl hframe hm)

/-- Settles O34: a refusal in RUN, a wait on a busy link, a completion with no mark, and else the frame of the mark chosen. -/
theorem stepFrameSendsOneFrame : Obligations.StepFrameSendsOneFrame := by
  unfold Obligations.StepFrameSendsOneFrame
  intro err s a h taken
  have hexec := exec_of_taken (c := .stepFrame err) (act := fun _ => stepFrameCommand) err h rfl rfl
  refine ⟨fun hrun => ⟨_, hexec, ?_⟩, fun hmode hframe => ?_, fun hmode hframe => ⟨fun hmarks => ⟨_, hexec, ?_⟩, fun m hm => ?_⟩⟩
  · rw [stepFrameCommand, if_pos (show (commandTaken err s).display.mode = .run from hrun)]
    exact settle_refuse err _ s
  · rw [hexec, stepFrameCommand_busy (s := commandTaken err s) hmode hframe]
    rfl
  · have hnone : stepMark (commandTaken err s) = none := by
      rw [stepMark_eq, show (commandTaken err s).display.marks = [] from hmarks]
      rfl
    have hexecuting : Executing err [] s { commandTaken err s with display := { s.display with step := .none } } :=
      (executing_commandTaken err s).of_eq rfl rfl rfl
    rw [stepFrameCommand_none (s := commandTaken err s) hmode hframe hnone]
    exact settle_complete hexecuting (w := { s with display := { s.display with step := .none } }) rfl .done .none [255, 0]
  · have hsome : stepMark (commandTaken err s) = some m := by
      rw [stepMark_eq, find?_or_find?_not]
      exact hm
    rw [hexec, stepFrameCommand_some (s := commandTaken err s) hmode hframe hsome]
    rfl

/-! ## FRAME_SEND (R98, R100, R105, R106) -/

theorem sendFrame_of_mark {s : State} {m : Mark} (hstep : s.display.step ≠ .waiting) (hc : choose s = some (.mark m)) :
    sendFrame s = sendMark m false s := by
  rw [sendFrame, if_neg hstep, hc]

theorem sendFrame_of_probe {s : State} {p : Probe} (hstep : s.display.step ≠ .waiting) (hc : choose s = some (.probe p)) :
    sendFrame s = sendProbe p.drop s := by
  rw [sendFrame, if_neg hstep, hc]

theorem canSend_of_choose {s : State} (hframe : s.display.frame = none) {c : Choice} (hc : choose s = some c) :
    canSend s = true := by
  simp [canSend, hframe, hc]

theorem canSend_of_waiting {s : State} (hframe : s.display.frame = none) (hstep : s.display.step = .waiting) :
    canSend s = true := by
  simp [canSend, hframe, hstep]

theorem sendFrame_of_waiting {s : State} (hstep : s.display.step = .waiting) : sendFrame s = serveStep s :=
  if_pos hstep

/-- Settles O43: the choice by the wall mode, the waiting STEP FRAME, and the opening of the reply window. -/
theorem frameSendFollowsTheMode : Obligations.FrameSendFollowsTheMode := by
  unfold Obligations.FrameSendFollowsTheMode
  intro s hpin urgent routine sent
  have hurgent : oldestMark true s = urgent := oldestMark_urgent s
  have hroutine : oldestMark false s = routine := oldestMark_routine s
  have hsend : canSend s = true → exec .frameSend s = .next (settle s (sendFrame s)) :=
    exec_of_occurs (c := .frameSend) rfl hpin
  refine ⟨fun hframe hstep => ?_, fun hframe hstep => ?_, fun f hframe hwindow => ?_⟩
  · have hmark : ∀ m, choose s = some (.mark m) → exec .frameSend s = .next (settle s (sendMark m false s)) := fun m hc => by
      rw [hsend (canSend_of_choose hframe hc), sendFrame_of_mark hstep hc]
    refine ⟨fun m hmode hm holder => hmark m (choose_mark hmode (hurgent.trans hm) holder), fun p hp holder => ?_,
      fun m hmode hnone hp hm => hmark m (choose_routine hmode (hurgent.trans hnone) hp (hroutine.trans hm)), fun hp h => ?_⟩
    · rw [← hurgent] at holder
      have hc := choose_probe hp holder
      rw [hsend (canSend_of_choose hframe hc), sendFrame_of_probe hstep hc]
      rfl
    · rw [← hurgent, ← hroutine] at h
      exact exec_of_not_occurs (c := .frameSend) rfl hpin
        (show canSend s = false by simp [canSend, choose_none hp h, hstep])
  · have hserved := hsend (canSend_of_waiting hframe hstep)
    rw [sendFrame_of_waiting hstep] at hserved
    refine ⟨fun m hm => ?_, fun hmarks words hwords => ?_⟩
    · rw [hserved, serveStep_some hstep hframe ((stepMark_eq s).trans hm)]
      rfl
    · rw [hserved, serveStep_none hstep hframe (by rw [stepMark_eq, hmarks]; rfl)]
      exact congrArg (fun t => Host.Outcome.next (settle s t)) (complete_some .done .none [255, 0] _ words hwords)
  · have hocc : occurs .frameTransmitted s = true := by
      show transmitting s = true
      simp [transmitting, hframe, hwindow]
    rw [exec_of_occurs (c := .frameTransmitted) rfl hpin hocc]
    show Host.Outcome.next (settle s (openWindow s)) = _
    rw [openWindow, hframe, Option.map_some]

/-! ## Probe requests (R111, R112) -/

theorem mem_offlineDrops_iff {s : State} {d : Nat} :
    d ∈ offlineDrops s ↔ d < 128 ∧ (dropAt s d).role ≠ .none ∧ (dropAt s d).online = false := by
  simp only [offlineDrops, configuredDrops, Config.dropCount, List.mem_filter, List.mem_range, decide_eq_true_eq,
    Bool.not_eq_true', and_assoc]

theorem pairwise_offlineDrops (s : State) : (offlineDrops s).Pairwise (· < ·) :=
  (List.pairwise_lt_range.filter _).filter _

/-- The drops of a list for which no probe request waits. -/
def notProbed (s : State) (drops : List Nat) : List Nat :=
  drops.filter fun d => !s.display.probes.any fun p => decide (p.drop = d)

/-- The probe list with requests for these drops behind it, numbered on (R111, log entry 27). -/
def probesAsked (drops : List Nat) (s : State) : State :=
  { s with display := { s.display with
    probes := s.display.probes ++ drops.zipIdx.map fun e => { drop := e.1, seq := s.display.joinSeq + e.2 }
    joinSeq := s.display.joinSeq + drops.length } }

theorem joinProbe_of_notProbed {a : Nat} {s : State} (h : (s.display.probes.any fun e => decide (e.drop = a)) = false) :
    joinProbe a s = probesAsked [a] s :=
  if_neg (by rw [h]; exact Bool.false_ne_true)

theorem probesAsked_cons (a : Nat) (drops : List Nat) (s : State) :
    probesAsked drops (probesAsked [a] s) = probesAsked (a :: drops) s := by
  simp [probesAsked, List.zipIdx_succ, Nat.add_assoc, Nat.add_comm 1]

/-- Requests for distinct drops: those that wait already keep their place, the others join in order. -/
theorem foldl_joinProbe {drops : List Nat} (hnodup : drops.Nodup) (s : State) :
    drops.foldl (fun t a => joinProbe a t) s = probesAsked (notProbed s drops) s := by
  induction drops generalizing s with
  | nil => simp [notProbed, probesAsked]
  | cons a drops ih =>
    obtain ⟨ha, hdrops⟩ := List.nodup_cons.1 hnodup
    rw [List.foldl_cons, ih hdrops]
    by_cases hprobed : (s.display.probes.any fun e => decide (e.drop = a)) = true
    · have hjoin : joinProbe a s = s := if_pos hprobed
      rw [hjoin, show notProbed s (a :: drops) = notProbed s drops from List.filter_cons_of_neg (by simp [hprobed])]
    · have hnew := eq_false_of_ne_true hprobed
      have hrest : notProbed (probesAsked [a] s) drops = notProbed s drops := by
        refine List.filter_congr fun d hd => ?_
        have hne : a ≠ d := fun h => ha (h ▸ hd)
        simp [probesAsked, hne]
      rw [joinProbe_of_notProbed hnew, hrest, probesAsked_cons,
        show notProbed s (a :: drops) = a :: notProbed s drops from List.filter_cons_of_pos (by simp [hnew])]

theorem probeTarget_none {s : State} (h : offlineDrops s = []) : probeTarget s = none := by
  rw [probeTarget, h]
  rfl

/-- The lowest OFFLINE address above the pointer, else the lowest (R111). -/
theorem probeTarget_some {s : State} {d : Nat} (hd : d ∈ offlineDrops s)
    (habove : s.display.pointer < d → ∀ b ∈ offlineDrops s, s.display.pointer < b → d ≤ b)
    (hbelow : d ≤ s.display.pointer → ∀ b ∈ offlineDrops s, b ≤ s.display.pointer ∧ d ≤ b) : probeTarget s = some d := by
  obtain h | h := Nat.lt_or_ge s.display.pointer d
  · have hfind := find?_eq_some_of_least (p := fun a => decide (s.display.pointer < a)) (pairwise_offlineDrops s) hd (by simp [h])
      fun b hb hp => habove h b hb (by simpa using hp)
    rw [probeTarget, hfind, Option.some_or]
  · have hfind : (offlineDrops s).find? (fun a => decide (s.display.pointer < a)) = none :=
      List.find?_eq_none.2 fun b hb => by simpa using (hbelow h b hb).1
    rw [probeTarget, hfind, Option.none_or]
    exact head?_eq_some_of_least (pairwise_offlineDrops s) hd fun b hb => (hbelow h b hb).2

/-- Settles O40: the requests of the command join in order, that of the timer is for its target. -/
theorem probesAreRequested : Obligations.ProbesAreRequested := by
  unfold Obligations.ProbesAreRequested
  refine ⟨fun err s a h => ?_, fun s hpin htimer => ?_⟩
  · intro off new
    have hexec := exec_of_taken (c := .probeDrops err) (act := fun _ => probeDropsCommand) err h rfl rfl
    have hoff : offlineDrops (commandTaken err s) = off := by
      show ((List.range 128).filter _).filter _ = off
      simp only [off, List.filter_filter, Bool.and_comm]
      rfl
    have hact : probeDropsCommand (commandTaken err s) =
        completeDone [resultOf off.length, resultOf new.length] (probesAsked new (commandTaken err s)) := by
      rw [probeDropsCommand, foldl_joinProbe (List.Pairwise.imp Nat.ne_of_lt (pairwise_offlineDrops _)), hoff]
      rfl
    refine ⟨_, hexec, ?_⟩
    rw [hact]
    have hexecuting : Executing err [] s (probesAsked new (commandTaken err s)) :=
      (executing_commandTaken err s).of_eq rfl rfl rfl
    exact settle_complete hexecuting (w := probesAsked new s) rfl .done .none [resultOf off.length, resultOf new.length]
  · intro offline
    have hexec : exec .probeTimerExpiry s = .next (settle s (probeTick s)) := exec_of_occurs (c := .probeTimerExpiry) rfl hpin htimer
    refine ⟨fun hnone => ?_, fun d hd habove hbelow => ?_⟩
    · have hempty : offlineDrops s = [] := List.eq_nil_iff_forall_not_mem.2 fun d hd => hnone d (mem_offlineDrops_iff.1 hd)
      rw [hexec, probeTick, probeTarget_none hempty]
    · intro asked
      have htarget := probeTarget_some (mem_offlineDrops_iff.2 hd) (fun h b hb => habove h b (mem_offlineDrops_iff.1 hb))
        fun h b hb => hbelow h b (mem_offlineDrops_iff.1 hb)
      rw [hexec, probeTick, htarget]
      refine congrArg (fun t => Host.Outcome.next (settle s t)) ?_
      by_cases hprobed : (s.display.probes.any fun p => decide (p.drop = d)) = true
      · simp only [asked, if_pos hprobed]
        exact if_pos hprobed
      · simp only [asked, if_neg hprobed]
        exact if_neg hprobed

end Sys2Proof.Machine
end

section
/-! PROOFS. The rotation of the notices and the commands WITHDRAW NOTICE, ISSUE CUE and CLEAR CUES; commands out of turn. -/

namespace Sys2Proof.Machine

set_option Elab.async false

/-! ## Marks and notes within a command -/

theorem TakenFrom.joinMark {w u : State} (h : TakenFrom w u) (m : Mark) :
    TakenFrom (Machine.joinMark m w) (Machine.joinMark m u) := by
  have hdisplay : (Machine.joinMark m u).display = (Machine.joinMark m w).display :=
    joinMark_display m (congrArg (·.display) h)
  obtain ⟨mem, cmd, att, hu⟩ : ∃ mem cmd att, u = { w with mem := mem, cmd := cmd, att := att } := ⟨_, _, _, h⟩
  rw [TakenFrom, joinMark_eq m u, joinMark_eq m w, hdisplay]
  simp only [hu]

theorem Executing.joinMark {err : Bool} {events : List EventClass} {s u : State} (h : Executing err events s u) (m : Mark) :
    Executing err events s (Machine.joinMark m u) := by
  rw [joinMark_eq]
  exact h.of_eq rfl rfl rfl

/-! ## The rotation (R163) -/

theorem nextShown_of_selects {s : State} {n : Nat} (h : Selects s n) : nextShown s = some n := by
  obtain ⟨hn, hactive, hleast⟩ := h
  have hmem : n ∈ List.range 8 := List.mem_range.2 hn
  have hsorted : (List.range 8).Pairwise (· < ·) := List.pairwise_lt_range
  obtain hlt | hle := Nat.lt_or_ge s.notices.rotIndex n
  · have habove : (List.range 8).find? (fun i => decide (s.notices.rotIndex < i) && isActive s i) = some n :=
      find?_eq_some_of_least hsorted hmem (by simp [hlt, isActive_iff.2 hactive]) fun b hb hp => by
        rw [Bool.and_eq_true, decide_eq_true_eq, isActive_iff] at hp
        exact (hleast b (List.mem_range.1 hb) hp.2).1 hlt hp.1
    show ((List.range 8).find? _).or _ = _
    rw [habove, Option.some_or]
  · have habove : (List.range 8).find? (fun i => decide (s.notices.rotIndex < i) && isActive s i) = none :=
      List.find?_eq_none.2 fun b hb hp => by
        rw [Bool.and_eq_true, decide_eq_true_eq, isActive_iff] at hp
        exact Nat.not_lt_of_le ((hleast b (List.mem_range.1 hb) hp.2).2 hle).1 hp.1
    show ((List.range 8).find? _).or _ = _
    rw [habove, Option.none_or]
    exact find?_eq_some_of_least hsorted hmem (isActive_iff.2 hactive) fun b hb hp =>
      ((hleast b (List.mem_range.1 hb) (isActive_iff.1 hp)).2 hle).2

theorem nextShown_of_none_active {s : State} (h : ∀ n < 8, (entryAt s n).state ≠ .active) : nextShown s = none := by
  cases hn : nextShown s with
  | none => rfl
  | some n =>
    obtain ⟨hlt, hactive⟩ := nextShown_active hn
    exact absurd hactive (h n hlt)

theorem rotate_some {s : State} {n : Nat} (h : nextShown s = some n) : rotate s = showing n s := by
  rw [rotate, advanceRotation, h]
  rfl

/-- The rotation shows none, its dwell timer stopped and the ticker drop marked (R163). -/
def showingNone (s : State) : State :=
  joinMark (markFor s.params.tickerDrop false none)
    { s with notices := { s.notices with shown := none, dwellTimer := none } }

theorem rotate_none {s : State} (h : nextShown s = none) : rotate s = showingNone s := by
  rw [rotate, advanceRotation, h]
  rfl

theorem TakenFrom.rotate {w u : State} (h : TakenFrom w u) : TakenFrom (Machine.rotate w) (Machine.rotate u) := by
  obtain ⟨mem, cmd, att, rfl⟩ : ∃ mem cmd att, u = { w with mem := mem, cmd := cmd, att := att } := ⟨_, _, _, h⟩
  cases hnext : nextShown w with
  | some n =>
    rw [rotate_some hnext, rotate_some (s := { w with mem := mem, cmd := cmd, att := att }) hnext]
    refine TakenFrom.joinMark ?_ _
    rfl
  | none =>
    rw [rotate_none hnext, rotate_none (s := { w with mem := mem, cmd := cmd, att := att }) hnext]
    refine TakenFrom.joinMark ?_ _
    rfl

theorem Executing.rotate {err : Bool} {events : List EventClass} {s u : State} (h : Executing err events s u) :
    Executing err events s (Machine.rotate u) := by
  cases hnext : nextShown u with
  | some n =>
    rw [rotate_some hnext]
    exact (h.of_eq (v := { u with notices := { u.notices with
      shown := some n, rotIndex := n, dwellTimer := some (entryAt u n).dwell } }) rfl rfl rfl).joinMark _
  | none =>
    rw [rotate_none hnext]
    exact (h.of_eq (v := { u with notices := { u.notices with shown := none, dwellTimer := none } }) rfl rfl rfl).joinMark _

/-- Settles O37: the dwell timer's expiry is an advance of the rotation. -/
theorem dwellExpiryAdvancesTheRotation : Obligations.DwellExpiryAdvancesTheRotation := by
  unfold Obligations.DwellExpiryAdvancesTheRotation
  intro s hpin htimer
  have hexec : exec .tickerDwellExpiry s = .next (settle s (rotate s)) := exec_of_occurs (c := .tickerDwellExpiry) rfl hpin htimer
  refine ⟨fun n hn => ?_, fun hnone => ?_⟩
  · rw [hexec, rotate_some (nextShown_of_selects hn)]
  · rw [hexec, rotate_none (nextShown_of_none_active hnone)]
    rfl

/-! ## WITHDRAW NOTICE (R161) -/

/-- A withdrawal of entry i abandons the fetch in progress: it is the entry's own. -/
def abandons (i : Nat) (s : State) : Bool :=
  s.notices.fetch.isSome && decide (s.notices.queue.head?.map (·.entry) = some i)

theorem withdrawnFetch_eq (i : Nat) (s : State) :
    withdrawnFetch s i = if abandons i s then .abandoned
      else if s.notices.queue.any (fun r => decide (r.entry = i)) then .removed else .noFetch := by
  unfold withdrawnFetch abandons
  cases s.notices.queue with
  | nil => simp
  | cons r rest => simp [and_comm]

theorem dropFetch_eq (i : Nat) (s : State) :
    dropFetch i s = { s with notices := { s.notices with
      queue := s.notices.queue.filter fun r => decide (r.entry ≠ i)
      fetch := if abandons i s then none else s.notices.fetch
      orphan := abandons i s || s.notices.orphan } } := by
  cases h : abandons i s with
  | true => simp [dropFetch, withdrawnFetch_eq, h]
  | false =>
    cases hany : s.notices.queue.any (fun r => decide (r.entry = i)) <;> simp [dropFetch, withdrawnFetch_eq, h, hany]

/-- The Notice Unit once entry i is withdrawn, before the rotation follows (R161). -/
def withdrawnUnit (i : Nat) (s : State) : NoticeUnit :=
  { s.notices with
    entries := s.notices.entries.set i (Entry.emptied .withdrawn (entryAt s i))
    queue := s.notices.queue.filter fun r => decide (r.entry ≠ i)
    fetch := if abandons i s then none else s.notices.fetch
    orphan := abandons i s || s.notices.orphan }

theorem modEntry_dropFetch (i : Nat) (s : State) :
    modEntry i (Entry.emptied .withdrawn) (dropFetch i s) = { s with notices := withdrawnUnit i s } := by
  rw [dropFetch_eq]
  rfl

theorem entryWithId_eq_some {s : State} (h : NoticeTableSound s) {id i : Nat} (hi : i < 8) (hne : (entryAt s i).state ≠ .empty)
    (hid : (entryAt s i).id = id) : entryWithId s id = some i := by
  obtain ⟨-, hdistinct, -⟩ := h
  cases hfound : entryWithId s id with
  | none => exact absurd hid (entryWithId_none hfound i hi hne)
  | some j =>
    obtain ⟨hj, hjne, hjid⟩ := entryWithId_some hfound
    rw [hdistinct i hi j hj hne hjne (hid.trans hjid.symm)]

theorem entryWithId_eq_none {s : State} {id : Nat} (h : ∀ i < 8, (entryAt s i).state = .empty ∨ (entryAt s i).id ≠ id) :
    entryWithId s id = none := by
  cases hfound : entryWithId s id with
  | none => rfl
  | some j =>
    obtain ⟨hj, hne, hid⟩ := entryWithId_some hfound
    exact absurd hid ((h j hj).resolve_left hne)

theorem withdrawNotice_some {s : State} {words : List Word} {i : Nat}
    (h : entryWithId s (field (commandWord words 1) 0 8) = some i) :
    withdrawNotice words s = completeDone [resultOf i, resultOf (withdrawnFetch s i).code] 
      (rotateIfGone { s with notices := withdrawnUnit i s }) := by
  rw [withdrawNotice, h, ← modEntry_dropFetch]

theorem rotateIfGone_of_active {s : State} (h : ∀ i, s.notices.shown = some i → (entryAt s i).state = .active) :
    rotateIfGone s = s := by
  unfold rotateIfGone
  split
  · rename_i i hshown
    exact if_pos (isActive_iff.2 (h i hshown))
  · rfl

theorem rotateIfGone_of_gone {s : State} {i : Nat} (hshown : s.notices.shown = some i) (h : (entryAt s i).state ≠ .active) :
    rotateIfGone s = rotate s := by
  rw [rotateIfGone, hshown]
  exact if_neg (mt isActive_iff.1 h)

theorem rotateIfGone_cases (s : State) : rotateIfGone s = s ∨ rotateIfGone s = rotate s := by
  unfold rotateIfGone
  split
  · split
    · exact .inl rfl
    · exact .inr rfl
  · exact .inl rfl

theorem Executing.rotateIfGone {err : Bool} {events : List EventClass} {s u : State} (h : Executing err events s u) :
    Executing err events s (Machine.rotateIfGone u) := by
  obtain hu | hu := rotateIfGone_cases u <;> rw [hu]
  · exact h
  · exact h.rotate

theorem TakenFrom.rotateIfGone {w u : State} (h : TakenFrom w u) :
    TakenFrom (Machine.rotateIfGone w) (Machine.rotateIfGone u) := by
  have hactive : ∀ i, isActive u i = isActive w i := fun i => by rw [h]; rfl
  have hshown : u.notices.shown = w.notices.shown := congrArg (·.notices.shown) h
  unfold Machine.rotateIfGone
  rw [hshown]
  split
  · rw [hactive]
    split
    · exact h
    · exact h.rotate
  · exact h

/-- Settles O36: a refusal, or the entry's withdrawal with an advance of the rotation where it was shown. -/
theorem withdrawNoticeEmptiesTheEntry : Obligations.WithdrawNoticeEmptiesTheEntry := by
  unfold Obligations.WithdrawNoticeEmptiesTheEntry
  intro err s a h htable id
  have hexec := exec_of_taken (c := .withdrawNotice err) (act := withdrawNotice) err h rfl rfl
  refine ⟨fun hnone => ⟨_, hexec, ?_⟩, fun i hi hne hid => ?_⟩
  · have hfound : entryWithId (commandTaken err s) (field (commandWord s.cmd.staging 1) 0 8) = none := entryWithId_eq_none hnone
    rw [withdrawNotice, hfound]
    exact settle_refuse err _ s
  intro abandoned queued code gone u
  have hlength : s.notices.entries.length = 8 := htable.1
  have hfound : entryWithId (commandTaken err s) (field (commandWord s.cmd.staging 1) 0 8) = some i :=
    entryWithId_eq_some (s := s) htable hi hne hid
  have hcode : resultOf (withdrawnFetch (commandTaken err s) i).code = code := by
    rw [withdrawnFetch_eq]
    show resultOf (if abandoned then Withdrawn.abandoned else if queued then .removed else .noFetch).code = code
    simp only [code]
    cases abandoned <;> cases queued <;> rfl
  have hgone : withdrawnUnit i (commandTaken err s) = gone := by
    have hentry : Entry.emptied .withdrawn (entryAt s i) = {
        id := id, state := .empty, cls := .info, dwell := 0, minutes := 0, phrase := 0, text := []
        replacing := false, result := .withdrawn, errAddr := 0 } := by
      rw [Entry.emptied, hid]
      rfl
    show withdrawnUnit i s = gone
    rw [withdrawnUnit, hentry]
    rfl
  have hempty : (entryAt u i).state ≠ .active := by
    have hself : entryAt u i = _ := List.getD_eq_getElem?_getD.trans (by rw [List.getElem?_set_self (by omega)])
    rw [hself]
    exact nofun
  have hexecuting : Executing err [] s { commandTaken err s with notices := gone } :=
    (executing_commandTaken err s).of_eq rfl rfl rfl
  have hact : withdrawNotice s.cmd.staging (commandTaken err s) =
      completeDone [resultOf i, code] (rotateIfGone { commandTaken err s with notices := gone }) := by
    rw [withdrawNotice_some hfound, hgone, hcode]
  have hanswer := settle_complete hexecuting.rotateIfGone (TakenFrom.rotateIfGone (w := u) rfl) .done .none [resultOf i, code]
  have hstays : ∀ j, s.notices.shown = some j → j ≠ i → RotationSound s → (entryAt u j).state = .active := by
    intro j hj hji hrotation
    have hother : entryAt u j = entryAt s j := by
      simp only [entryAt, u, gone, List.getD_eq_getElem?_getD, List.getElem?_set_ne hji.symm]
    rw [hother]
    exact (hrotation.1 j hj).2
  rw [hact] at hexec
  obtain ⟨hanswered, hatt, honly⟩ := hanswer
  refine ⟨_, hexec, hanswered, hatt, fun hshown hrotation => ?_, fun hshown => ⟨fun n hn => ?_, fun hnone => ?_⟩⟩
  · have hactive : ∀ j, s.notices.shown = some j → (entryAt u j).state = .active := fun j hj =>
      hstays j hj (fun hji => hshown (hji ▸ hj)) hrotation
    rwa [rotateIfGone_of_active hactive] at honly
  · rwa [rotateIfGone_of_gone (s := u) hshown hempty, rotate_some (nextShown_of_selects hn)] at honly
  · rwa [rotateIfGone_of_gone (s := u) hshown hempty, rotate_none (nextShown_of_none_active hnone)] at honly

end Sys2Proof.Machine
end

section
/-! PROOFS. The best of a list by a fold; ISSUE CUE, CLEAR CUES, and the beginning of a message. -/

namespace Sys2Proof.Machine

set_option Elab.async false

/-! ## The best of a list -/

/-- A fold that keeps, of two, the one that goes before ends with the element that goes before every other. -/
theorem foldl_eq_some_best {α : Type} {f : Option α → α → Option α} {l : List α} {v : α} (hnone : ∀ c, f none c = some c)
    (hsome : ∀ b c, f (some b) c = some b ∨ f (some b) c = some c) (htake : ∀ b ∈ l, f (some b) v = some v)
    (hkeep : ∀ c ∈ l, f (some v) c = some v) (hv : v ∈ l) : l.foldl f none = some v := by
  have hend : ∀ rest : List α, (∀ c ∈ rest, c ∈ l) → rest.foldl f (some v) = some v := by
    intro rest hrest
    induction rest with
    | nil => rfl
    | cons c rest ih =>
      rw [List.foldl_cons, hkeep c (hrest c List.mem_cons_self)]
      exact ih fun d hd => hrest d (List.mem_cons_of_mem c hd)
  have hrun : ∀ rest : List α, (∀ c ∈ rest, c ∈ l) → v ∈ rest → ∀ best : Option α, (∀ b ∈ best, b ∈ l) →
      rest.foldl f best = some v := by
    intro rest hrest hmem
    induction rest with
    | nil => cases hmem
    | cons c rest ih =>
      intro best hbest
      have hcl : c ∈ l := hrest c List.mem_cons_self
      have hrest' : ∀ d ∈ rest, d ∈ l := fun d hd => hrest d (List.mem_cons_of_mem c hd)
      rw [List.foldl_cons]
      obtain rfl | hmem' := List.mem_cons.1 hmem
      · have hfirst : f best v = some v := by
          cases best with
          | none => exact hnone v
          | some b => exact htake b (hbest b rfl)
        rw [hfirst]
        exact hend rest hrest'
      · refine ih hrest' hmem' (f best c) fun d hd => ?_
        cases best with
        | none =>
          rw [hnone] at hd
          exact Option.some.inj hd ▸ hcl
        | some b =>
          obtain h | h := hsome b c <;> rw [h] at hd
          · exact Option.some.inj hd ▸ hbest b rfl
          · exact Option.some.inj hd ▸ hcl
  exact hrun l (fun _ h => h) hv none nofun

/-- The youngest record of the lowest class (R132). -/
theorem victim_eq_some {u : CueUnit} {v : Cue} (hv : v ∈ u.queue) (hbest : ∀ e ∈ u.queue, e ≠ v → v.rank < e.rank ∨
    v.rank = e.rank ∧ ageOf u.next v.order < ageOf u.next e.order) : victim u = some v := by
  refine foldl_eq_some_best (fun c => rfl) (fun b c => ?_) (fun b hb => ?_) (fun c hc => ?_) hv
  · simp only
    split
    · exact .inr rfl
    · split
      · exact .inr rfl
      · exact .inl rfl
  · by_cases hbv : b = v
    · simp [hbv]
    · obtain h | h := hbest b hb hbv
      · simp [h]
      · simp [h.1, h.2]
  · by_cases hcv : c = v
    · simp [hcv]
    · obtain h | ⟨hrank, hage⟩ := hbest c hc hcv
      · simp [Nat.not_lt_of_lt h, Nat.ne_of_gt h]
      · simp [hrank, Nat.not_lt_of_lt hage]

/-- The record that goes first: the higher class, then the older (R134). -/
theorem firstCue_eq_some {next : BitVec 32} {cs : List Cue} {v : Cue} (hv : v ∈ cs) (hbest : ∀ e ∈ cs, e ≠ v → e.rank < v.rank ∨
    e.rank = v.rank ∧ ageOf next e.order < ageOf next v.order) : firstCue next cs = some v := by
  refine foldl_eq_some_best (fun c => rfl) (fun b c => ?_) (fun b hb => ?_) (fun c hc => ?_) hv
  · simp only
    split
    · exact .inr rfl
    · exact .inl rfl
  · by_cases hbv : b = v
    · simp [hbv]
    · obtain h | h := hbest b hb hbv
      · simp [goesFirst, h]
      · simp [goesFirst, h.1, h.2]
  · by_cases hcv : c = v
    · simp [hcv]
    · obtain h | ⟨hrank, hage⟩ := hbest c hc hcv
      · simp [goesFirst, Nat.not_lt_of_lt h, Nat.ne_of_lt h]
      · simp [goesFirst, hrank, Nat.not_lt_of_lt hage]

/-! ## Records that leave the queue (R133, R136) -/

/-- The queue loses the records, and the message in flight, where its record is one of them, goes on with it REMOVED. -/
theorem CueUnit.remove_eq (test : Cue → Bool) (u : CueUnit) :
    u.remove test = { u with
      queue := u.queue.filter fun c => !test c
      msg := u.msg.map fun m =>
        if u.queue.any (fun c => test c && decide (c.order = m.cue.order)) then { m with condition := .removed } else m } := by
  cases hmsg : u.msg with
  | none => simp [CueUnit.remove, inFlight, hmsg]
  | some m =>
    by_cases hremoved : m.condition = .removed
    · have hsame : { m with condition := .removed } = m := by rw [← hremoved]
      simp [CueUnit.remove, inFlight, hmsg, hremoved, hsame]
    · have htest : (u.queue.any fun c => test c && inFlight u c.order) =
          u.queue.any fun c => test c && decide (c.order = m.cue.order) := by
        simp only [inFlight, hmsg, hremoved, ne_eq, not_false_eq_true, decide_true, Bool.true_and, eq_comm]
      simp only [CueUnit.remove, htest, setCondition, hmsg, Option.map_some]
      split <;> rfl

/-! ## CLEAR CUES (R142) -/

/-- Settles O39: the records of the classes leave, and their number is what is left out of the queue's length. -/
theorem clearCuesRemovesTheClasses : Obligations.ClearCuesRemovesTheClasses := by
  unfold Obligations.ClearCuesRemovesTheClasses
  intro err s a h inSet left
  have hexec := exec_of_taken (c := .clearCues err) (act := clearCuesCommand) err h rfl rfl
  have htest : inClassSet (commandWord s.cmd.staging 1) = inSet := by
    funext c
    simp only [inClassSet, inSet]
    cases c.kind <;> rfl
  have hcount : s.cues.queue.countP inSet = s.cues.queue.length - left.length := by
    have hsum := List.length_eq_countP_add_countP inSet (l := s.cues.queue)
    have hleft : left.length = s.cues.queue.countP fun c => !inSet c := List.countP_eq_length_filter.symm
    simp only [Bool.not_eq_true, Bool.decide_eq_false] at hsum
    omega
  obtain ⟨u, hu⟩ : ∃ u, u = removeCues inSet (commandTaken err s) := ⟨_, rfl⟩
  have hcues : s.cues.remove inSet = { s.cues with
      queue := left
      msg := s.cues.msg.map fun m =>
        if s.cues.queue.any (fun c => inSet c && decide (c.order = m.cue.order)) then { m with condition := .removed }
        else m } := CueUnit.remove_eq inSet s.cues
  have hact : clearCuesCommand s.cmd.staging (commandTaken err s) =
      completeDone [resultOf (s.cues.queue.length - left.length), resultOf left.length] u := by
    rw [clearCuesCommand, htest, ← hu, ← hcount, depth, hu]
    exact congrArg (fun c => completeDone [_, resultOf c.queue.length] _) hcues
  have hexecuting : Executing err [] s u := by
    rw [hu]
    exact (executing_commandTaken err s).of_eq rfl rfl rfl
  rw [hact] at hexec
  refine ⟨_, hexec, settle_complete hexecuting ?_ .done .none _⟩
  rw [hu, ← hcues]
  rfl

/-! ## ISSUE CUE (R140) -/

section Issue

variable {s : State} {c : Cue}

/-- A cue without a slot replaces none. -/
theorem not_sameCue_of_slot (hslot : c.slot = none) (queue : List Cue) : (queue.any fun e => sameCue e c) = false := by
  refine List.any_eq_false.2 fun e _ => ?_
  cases he : e.slot <;> simp [sameCue, he, hslot]

theorem placeCue_joined (hslot : c.slot = none) (hroom : s.cues.queue.length < 16) :
    s.cues.placeCue c = (s.cues.join c, .joined s.cues.next) := by
  rw [CueUnit.placeCue, if_neg (by rw [not_sameCue_of_slot hslot]; exact Bool.false_ne_true), if_pos hroom]

theorem placeCue_displaced {v : Cue} (hslot : c.slot = none) (hfull : s.cues.queue.length = 16)
    (hv : victim s.cues = some v) (hrank : v.rank < c.rank) :
    s.cues.placeCue c =
      ((s.cues.remove fun e => decide (e.order = v.order)).join c, .displaced s.cues.next v.kind v.slot) := by
  rw [CueUnit.placeCue, if_neg (by rw [not_sameCue_of_slot hslot]; exact Bool.false_ne_true),
    if_neg (by rw [hfull]; exact Nat.lt_irrefl 16), hv]
  exact if_pos hrank

theorem placeCue_dropped (hslot : c.slot = none) (hfull : s.cues.queue.length = 16)
    (hrank : ∀ e ∈ s.cues.queue, c.rank ≤ e.rank) : s.cues.placeCue c = (s.cues, .dropped) := by
  rw [CueUnit.placeCue, if_neg (by rw [not_sameCue_of_slot hslot]; exact Bool.false_ne_true),
    if_neg (by rw [hfull]; exact Nat.lt_irrefl 16)]
  cases hv : victim s.cues with
  | none => rfl
  | some v => exact if_neg (Nat.not_lt_of_le (hrank v (victim_mem hv)))

/-- The record displaced leaves, told by its order (log entry 36). -/
theorem remove_order {u : CueUnit} {v : Cue} (hv : v ∈ u.queue) :
    u.remove (fun e => decide (e.order = v.order)) = { u with
      queue := u.queue.filter (·.order ≠ v.order)
      msg := u.msg.map fun m => if m.cue.order = v.order then { m with condition := .removed } else m } := by
  have hany : ∀ m : Message, (u.queue.any fun c => decide (c.order = v.order) && decide (c.order = m.cue.order)) =
      decide (m.cue.order = v.order) := by
    intro m
    rw [Bool.eq_iff_iff, List.any_eq_true, decide_eq_true_eq]
    constructor
    · rintro ⟨e, -, he⟩
      rw [Bool.and_eq_true, decide_eq_true_eq, decide_eq_true_eq] at he
      exact he.2.symm.trans he.1
    · intro hm
      exact ⟨v, hv, by simp [hm]⟩
  simp only [CueUnit.remove_eq, hany, decide_eq_true_eq, decide_not]

end Issue

theorem issueKind_eq_none_iff {n : Nat} : issueKind n = none ↔ n ≠ 6 ∧ n ≠ 7 := by
  unfold issueKind
  split <;> simp_all

theorem issuedCue_eq_none_iff {words : List Word} :
    issuedCue words = none ↔
      field (commandWord words 1) 0 8 ≠ 6 ∧ field (commandWord words 1) 0 8 ≠ 7 ∨ 3 < field (commandWord words 1) 8 8 ∨
        field (commandWord words 1) 16 16 = 0 ∨ 4095 < field (commandWord words 1) 16 16 := by
  rw [← issueKind_eq_none_iff]
  cases hkind : issueKind (field (commandWord words 1) 0 8) with
  | none => simp [issuedCue, hkind]
  | some kind =>
    simp only [issuedCue, hkind]
    split <;> simp_all

theorem issuedCue_eq_some {words : List Word} {c : Cue} (h : issuedCue words = some c) :
    c = phraseCue (if field (commandWord words 1) 0 8 = 6 then .general else .emergency) (field (commandWord words 1) 16 16)
      (field (commandWord words 1) 8 8) := by
  unfold issuedCue issueKind at h
  simp only at h
  split at h
  · rename_i kind hkind
    split at hkind <;> simp_all
  · cases h

theorem settle_complete_queue (p : Primary) (q : Secondary) (results : List Word) (s u : State) :
    (settle s (complete p q results u)).cues.queue = u.cues.queue := by
  rw [complete_eq]
  rfl

/-- The answer to a cue that displaced a record (R140). -/
theorem answerIssue_displaced {s : State} {c v : Cue} (hslot : c.slot = none) (hfull : s.cues.queue.length = 16)
    (hv : victim s.cues = some v) (hrank : v.rank < c.rank) {u : CueUnit}
    (hu : u = (s.cues.remove fun e => decide (e.order = v.order)).join c) :
    answerIssue (handCue c s).2 (handCue c s).1 =
      completeDone [s.cues.next, resultOf u.queue.length, resultOf v.kind.code, resultOf (v.slot.getD 255)]
        (noteIf true summaryOffset (pend .cueDropped { s with cues := u })) := by
  rw [handCue, placeCue_displaced hslot hfull hv hrank, hu]
  rfl

/-- The answer to a cue that is dropped (R140). -/
theorem answerIssue_dropped {s : State} {c : Cue} (hslot : c.slot = none) (hfull : s.cues.queue.length = 16)
    (hrank : ∀ e ∈ s.cues.queue, c.rank ≤ e.rank) :
    answerIssue (handCue c s).2 (handCue c s).1 =
      complete .refused .queueFull [0, 16] (noteIf false summaryOffset (pend .cueDropped s)) := by
  have hdepth : ∀ u : State, u.cues = s.cues → resultOf (depth u) = 16 := fun u hu => by
    rw [depth, hu, hfull]
    rfl
  rw [handCue, placeCue_dropped hslot hfull hrank, answerIssue, hdepth]
  · rfl
  · rfl

/-- Settles O38: a refusal, and the four outcomes of placing a cue that has no slot. -/
theorem issueCueJoinsDisplacesOrDrops : Obligations.IssueCueJoinsDisplacesOrDrops := by
  unfold Obligations.IssueCueJoinsDisplacesOrDrops
  intro err s a h w bad c
  have hexec := exec_of_taken (c := .issueCue err) (act := issueCueCommand) err h rfl rfl
  refine ⟨_, hexec, fun hbad => ?_, ?_⟩
  · rw [issueCueCommand, issuedCue_eq_none_iff.2 hbad]
    exact settle_refuse err _ s
  obtain ⟨made, hmade⟩ : ∃ made, made = phraseCue (if field w 0 8 = 6 then .general else .emergency) (field w 16 16) (field w 8 8) :=
    ⟨_, rfl⟩
  have hc : c = { made with order := s.cues.next } := by rw [hmade]
  have hslot : made.slot = none := by rw [hmade]; rfl
  have hrank : made.rank = c.rank := by rw [hc]; rfl
  have hact : ¬bad → issueCueCommand s.cmd.staging (commandTaken err s) =
      answerIssue (handCue made (commandTaken err s)).2 (handCue made (commandTaken err s)).1 := by
    intro hgood
    rw [issueCueCommand]
    cases hissued : issuedCue s.cmd.staging with
    | none => exact absurd (issuedCue_eq_none_iff.1 hissued) hgood
    | some m => rw [issuedCue_eq_some hissued, ← hmade]
  have hbase := executing_commandTaken err s
  refine ⟨fun hgood hroom => ?_, fun hgood hfull => ⟨fun v hv hlow hbest => ?_, fun hall => ?_⟩⟩ <;> rw [hact hgood]
  · rw [handCue, placeCue_joined (s := commandTaken err s) hslot hroom, hc]
    have hexecuting : Executing err [] s (noteIf true summaryOffset { commandTaken err s with cues := s.cues.join made }) :=
      hbase.of_eq rfl rfl rfl
    have hlength : (s.cues.join made).queue.length = s.cues.queue.length + 1 := List.length_append
    rw [← hlength]
    exact settle_complete hexecuting (w := { s with cues := s.cues.join made }) rfl .done .none
      [s.cues.next, resultOf (s.cues.join made).queue.length]
  · obtain ⟨u, hu⟩ : ∃ u, u = (s.cues.remove fun e => decide (e.order = v.order)).join made := ⟨_, rfl⟩
    have hcues : u = { s.cues with
        queue := s.cues.queue.filter (·.order ≠ v.order) ++ [c], next := s.cues.next + 1
        msg := s.cues.msg.map fun m => if m.cue.order = v.order then { m with condition := .removed } else m } := by
      rw [hu, remove_order hv, hc]
      rfl
    have hkind : resultOf v.kind.code = (match v.kind with
        | .platformChange => 1
        | .cancellation => 2
        | .delay => 3
        | .boarding => 4
        | .notice => 5
        | .general => 6
        | .emergency => 7) := by
      cases v.kind <;> rfl
    have hexecuting : Executing err [.cueDropped] s (noteIf true summaryOffset (pend .cueDropped { commandTaken err s with cues := u })) :=
      ((hbase.of_eq (v := { commandTaken err s with cues := u }) rfl rfl rfl).pend .cueDropped).of_eq rfl rfl rfl
    have hanswer := settle_complete hexecuting (w := { s with cues := u }) rfl .done .none
      [s.cues.next, resultOf u.queue.length, resultOf v.kind.code, resultOf (v.slot.getD 255)]
    rw [answerIssue_displaced (s := commandTaken err s) hslot hfull (victim_eq_some hv hbest) (hrank ▸ hlow) hu, completeDone,
      settle_complete_queue, ← hcues]
    rw [hkind] at hanswer ⊢
    exact hanswer
  · have hexecuting : Executing err [.cueDropped] s (noteIf false summaryOffset (pend .cueDropped (commandTaken err s))) :=
      (hbase.pend .cueDropped).of_eq rfl rfl rfl
    rw [answerIssue_dropped (s := commandTaken err s) hslot hfull (hrank ▸ hall)]
    exact settle_complete hexecuting (w := s) rfl .refused .queueFull [0, 16]

end Sys2Proof.Machine
end

section
/-! PROOFS. Triggers that hand no command to a block: out of turn, of no command, and during an execution; and RELOAD. -/

namespace Sys2Proof.Machine

set_option Elab.async false

/-- An access whose completion hands the command of this code to its block, in the part states that `allowed` names. -/
def HandsTrigger (allowed : PartState → Bool) (err : Bool) (code : Nat) (c : Instr) : Prop :=
  Instr.isReset c = false ∧ ∀ s, occurs c s = triggers code s ∧ ∃ act, effect c s = handTrigger allowed act err s

/-- The commands that are taken in RUNNING only, with their codes (section 11.2, R167). -/
def runningRows (err : Bool) : List (Nat × Instr) :=
  [(1, .setClock err), (2, .setSource err), (3, .setWallMode err), (4, .stepFrame err), (5, .postNotice err),
    (6, .withdrawNotice err), (7, .issueCue err), (8, .clearCues err), (9, .probeDrops err)]

theorem runningRows_hand (err : Bool) : ∀ e ∈ runningRows err, HandsTrigger whenRunning err e.1 e.2 := by
  simp only [runningRows, List.forall_mem_cons]
  exact ⟨⟨rfl, fun _ => ⟨rfl, setClockCommand, rfl⟩⟩, ⟨rfl, fun _ => ⟨rfl, setSourceCommand, rfl⟩⟩,
    ⟨rfl, fun _ => ⟨rfl, setWallModeCommand, rfl⟩⟩, ⟨rfl, fun _ => ⟨rfl, fun _ => stepFrameCommand, rfl⟩⟩,
    ⟨rfl, fun _ => ⟨rfl, postNotice, rfl⟩⟩, ⟨rfl, fun _ => ⟨rfl, withdrawNotice, rfl⟩⟩,
    ⟨rfl, fun _ => ⟨rfl, issueCueCommand, rfl⟩⟩, ⟨rfl, fun _ => ⟨rfl, clearCuesCommand, rfl⟩⟩,
    ⟨rfl, fun _ => ⟨rfl, fun _ => probeDropsCommand, rfl⟩⟩, nofun⟩

theorem reload_hands (err : Bool) : HandsTrigger whenReloadable err 10 (.reload err) :=
  ⟨rfl, fun _ => ⟨rfl, fun _ => beginReading, rfl⟩⟩

theorem query_hands (err : Bool) : HandsTrigger whenever err 11 (.query err) :=
  ⟨rfl, fun _ => ⟨rfl, fun _ => queryCommand, rfl⟩⟩

section Triggered

variable {s : State} {a : Access} {code : Nat} {allowed : PartState → Bool} {err : Bool} {c : Instr}

/-- In a part state that the command is not taken in, it is refused (R167). -/
theorem handTrigger_refused (act : List Word → State → State) (err : Bool) (h : TriggerAt s a code) (hexec : s.cmd.exec = none)
    (hallowed : allowed s.part.state = false) :
    handTrigger allowed act err s = refuse .wrongState (commandTaken err s) := by
  simp only [handTrigger, finishWrite_of_triggerAt h, hexec, hallowed, takeCommand_eq, Option.isSome_none,
    Bool.false_eq_true, ↓reduceIte]
  rfl

/-- During an execution a trigger is not taken: MAILBOX_OVERRUN (R166). -/
theorem handTrigger_overrun (act : List Word → State → State) (err : Bool) (h : TriggerAt s a code)
    (hexec : s.cmd.exec.isSome = true) :
    handTrigger allowed act err s = { s with mem := s.mem.answered (.writeDone err), att := s.att.pend .mailboxOverrun } := by
  simp only [handTrigger, finishWrite_of_triggerAt h, hexec, ↓reduceIte]
  rfl

theorem HandsTrigger.exec_eq (hc : HandsTrigger allowed err code c) (h : TriggerAt s a code) :
    ∃ act, exec c s = .next (settle s (handTrigger allowed act err s)) := by
  obtain ⟨hreset, hrow⟩ := hc
  obtain ⟨hocc, act, heff⟩ := hrow s
  exact ⟨act, by rw [exec_of_occurs hreset h.1.1 (hocc.trans (triggers_of_triggerAt h)), heff]⟩

theorem HandsTrigger.refused (hc : HandsTrigger allowed err code c) (h : TriggerAt s a code) (hexec : s.cmd.exec = none)
    (hallowed : allowed s.part.state = false) : ∃ t, exec c s = .next t ∧ RefusedAt err .wrongState s t := by
  obtain ⟨act, hrun⟩ := hc.exec_eq h
  rw [handTrigger_refused act err h hexec hallowed] at hrun
  exact ⟨_, hrun, settle_refuse err _ s⟩

theorem HandsTrigger.overrun (hc : HandsTrigger allowed err code c) (h : TriggerAt s a code) (hexec : s.cmd.exec.isSome = true) :
    exec c s = .next (settle s { s with mem := s.mem.answered (.writeDone err), att := s.att.pend .mailboxOverrun }) := by
  obtain ⟨act, hrun⟩ := hc.exec_eq h
  rw [hrun, handTrigger_overrun act err h hexec]

/-- A trigger whose code names no command. -/
theorem exec_unknownCommand (err : Bool) (h : TriggerAt s a code) (hcode : code = 0 ∨ 11 < code) :
    exec (.unknownCommand err) s = .next (settle s (handTrigger whenever (fun _ => refuse .unknownCommand) err s)) := by
  have htriggers := triggers_of_triggerAt h
  rw [triggers, Bool.and_eq_true, decide_eq_true_eq] at htriggers
  obtain ⟨hinFlight, hstaged⟩ := htriggers
  refine exec_of_occurs (c := .unknownCommand err) rfl h.1.1 ?_
  show (inFlightIs isTrigger s && unknownCode (commandCode s.cmd.staging)) = true
  rw [hinFlight, hstaged]
  rw [Bool.true_and, unknownCode, Bool.or_eq_true, decide_eq_true_eq, decide_eq_true_eq]
  exact hcode

end Triggered

/-- A RELOAD that is taken begins the configuration reading (R174, R177). -/
theorem beginReading_eq (s : State) : beginReading s = { s with
    mem := { s.mem with reads := s.mem.reads ++ [{ addr := s.strap.toNat * 0x400000 + 0x40, source := .load }] }
    part := { s.part with state := .starting, reading := .config [] } } := by
  rfl

/-- Settles O42: what a trigger does outside its command's part states, without a command, and during an execution. -/
theorem commandsOutOfTurnAreAnswered : Obligations.CommandsOutOfTurnAreAnswered := by
  unfold Obligations.CommandsOutOfTurnAreAnswered
  intro err s a rows
  refine ⟨fun h hexec => ⟨fun hstate => ?_, fun hstate => ?_⟩, fun hwrite hlanes hexec hcode => ?_, fun e he h hexec hstate => ?_,
    fun words hwords => ?_⟩
  · have hallowed : whenReloadable s.part.state = true := by
      obtain hs | hs := hstate <;> rw [hs] <;> rfl
    have hrun : exec (.reload err) s = .next (settle s (handTrigger whenReloadable (fun _ => beginReading) err s)) :=
      exec_of_occurs (c := .reload err) rfl h.1.1 (triggers_of_triggerAt h)
    rw [hrun, handTrigger_eq_act _ err h hexec hallowed, beginReading_eq]
    rfl
  · have hallowed : whenReloadable s.part.state = false := by
      obtain hs | hs := hstate <;> rw [hs] <;> rfl
    exact (reload_hands err).refused h hexec hallowed
  · have h : TriggerAt s a (commandCode s.cmd.staging) := ⟨hwrite, hlanes, rfl⟩
    have hrun := exec_unknownCommand err h hcode
    rw [handTrigger_eq_act _ err h hexec rfl] at hrun
    exact ⟨_, hrun, settle_refuse err _ s⟩
  · exact (runningRows_hand err e he).refused h hexec (by simp [whenRunning, hstate])
  · intro overrun
    have hexec : s.cmd.exec.isSome = true := by rw [hwords]; rfl
    refine ⟨fun e he h => ?_, fun hwrite hlanes hcode => ?_⟩
    · obtain he | he := List.mem_append.1 he
      · exact (runningRows_hand err e he).overrun h hexec
      · obtain rfl | he := List.mem_cons.1 he
        · exact (reload_hands err).overrun h hexec
        · obtain rfl := List.mem_singleton.1 he
          exact (query_hands err).overrun h hexec
    · have h : TriggerAt s a (commandCode s.cmd.staging) := ⟨hwrite, hlanes, rfl⟩
      rw [exec_unknownCommand err h hcode, handTrigger_overrun _ err h hexec]

end Sys2Proof.Machine
end

section
/-! PROOFS. The cue link: the beginning of a message, the handshake of a byte, the timers and the inputs. -/

namespace Sys2Proof.Machine

set_option Elab.async false

/-! ## The beginning of a message (R134 to R136) -/

theorem mem_firstCue {next : BitVec 32} {cs : List Cue} {c : Cue} (h : firstCue next cs = some c) : c ∈ cs := by
  have hrun : ∀ (l : List Cue) (best : Option Cue), (∀ b ∈ best, b ∈ cs) → (∀ e ∈ l, e ∈ cs) →
      ∀ d ∈ l.foldl (fun best c =>
        match best with
        | none => some c
        | some b => if goesFirst next c b then some c else best) best, d ∈ cs := by
    intro l
    induction l with
    | nil => exact fun best hbest _ => hbest
    | cons e l ih =>
      intro best hbest hl
      refine ih _ (fun b hb => ?_) fun x hx => hl x (List.mem_cons_of_mem e hx)
      have he : e ∈ cs := hl e List.mem_cons_self
      cases best with
      | none => exact Option.some.inj hb ▸ he
      | some b' =>
        simp only at hb
        split at hb
        · exact Option.some.inj hb ▸ he
        · exact hbest b hb
  exact hrun cs none nofun (fun _ he => he) c h

theorem nextAmong_eq_some {s : State} {test : Cue → Bool} {c : Cue} (hc : c ∈ s.cues.queue) (hgo : MayGo s c) (htest : test c = true)
    (hbest : ∀ e ∈ s.cues.queue, MayGo s e → e ≠ c → e.rank < c.rank ∨
      e.rank = c.rank ∧ (s.cues.next - e.order).toNat < (s.cues.next - c.order).toNat) : nextAmong test s = some c := by
  refine firstCue_eq_some (List.mem_filter.2 ⟨hc, by simp [(eligible_iff s c).2 hgo, htest]⟩) fun e he hne => ?_
  obtain ⟨hmem, hfit⟩ := List.mem_filter.1 he
  rw [Bool.and_eq_true] at hfit
  exact hbest e hmem ((eligible_iff s e).1 hfit.1) hne

theorem nextAmong_eq_none {s : State} {test : Cue → Bool} (h : ∀ c ∈ s.cues.queue, test c = true → ¬MayGo s c) :
    nextAmong test s = none := by
  cases hnext : nextAmong test s with
  | none => rfl
  | some c =>
    obtain ⟨hmem, hfit⟩ := List.mem_filter.1 (mem_firstCue hnext)
    rw [Bool.and_eq_true] at hfit
    exact absurd ((eligible_iff s c).1 hfit.1) (h c hmem hfit.2)

theorem busyHolds_eq_false {s : State} (h : s.cues.busyIn = false ∨ s.params.linkMode = .timed) : busyHolds s = false := by
  obtain h | h := h <;> simp [busyHolds, h]

theorem beginMessage_eq (c : Cue) (s : State) : beginMessage c s = { s with cues := { s.cues with
    link := .sending, gapTimer := none, strobe := true, dataOut := 0xC5
    msg := some {
      cue := c, bytes := messageBytes c, index := 0, condition := .unchanged, gone := false
      mode := s.params.linkMode, byteLimit := s.params.byteLimit, spacing := s.params.spacing, ack := .none
      pulseOver := false } } } := rfl

/-- Settles O46: the cue that may begin is the one that goes first of those that may, or there is none. -/
theorem messageBeginsWithTheNextCue : Obligations.MessageBeginsWithTheNextCue := by
  unfold Obligations.MessageBeginsWithTheNextCue
  refine ⟨fun s c hpin hc hgo hbusy hlink hbest => ?_, fun s h => ?_⟩
  · have hnext : cueToBegin s = some c := by
      unfold cueToBegin
      obtain hlink | ⟨hlink, hkind⟩ := hlink <;> simp only [hlink, busyHolds_eq_false hbusy, Bool.false_eq_true, ↓reduceIte]
      · exact nextAmong_eq_some hc hgo rfl hbest
      · exact nextAmong_eq_some hc hgo (by simp [hkind]) hbest
    rw [exec_of_occurs (c := .messageBegins) rfl hpin (show (cueToBegin s).isSome = true by rw [hnext]; rfl)]
    show Host.Outcome.next (settle s (beginNext s)) = _
    rw [beginNext, hnext]
    exact congrArg (fun t => Host.Outcome.next (settle s t)) (beginMessage_eq c s)
  · by_cases hpin : s.resetPin = true
    · exact occur_asserted hpin
    · have hnone : cueToBegin s = none := by
        unfold cueToBegin
        obtain ⟨hready, hgap⟩ | ⟨hhigh, hmode⟩ | ⟨hlink, hnone⟩ | ⟨hlink, hnone⟩ := h
        · split
          · exact absurd ‹_› hready
          · exact absurd ‹_› hgap
          · rfl
        · have hholds : busyHolds s = true := by simp [busyHolds, hhigh, hmode]
          simp only [hholds, ↓reduceIte]
          split <;> rfl
        · simp only [hlink, nextAmong_eq_none fun c hc _ => hnone c hc, ite_self]
        · have hemergency : nextAmong (fun c => decide (c.kind = .emergency)) s = none :=
            nextAmong_eq_none fun c hc hkind => hnone c hc (of_decide_eq_true hkind)
          simp only [hlink, hemergency, ite_self]
      exact exec_of_not_occurs (c := .messageBegins) rfl (eq_false_of_ne_true hpin)
        (show (cueToBegin s).isSome = false by rw [hnone]; rfl)

/-! ## The handshake of a byte (R144 to R146) -/

section Handshake

variable {s u : State} {m : Message} {c : Instr}

/-- The byte completes, and the next begins. -/
theorem completeByte_next (h : m.index + 1 < m.bytes.length) : completeByte m u = { u with cues := { u.cues with
    strobe := true, dataOut := m.bytes.getD (m.index + 1) 0
    msg := some { m with index := m.index + 1, ack := .none, pulseOver := false } } } :=
  if_neg (by simpa [Message.lastByte] using h)

theorem tryComplete_next (hmsg : u.cues.msg = some m) (hdone : handshakeDone m = true) (hnext : m.index + 1 < m.bytes.length)
    (hbusy : u.cues.busyIn = false) : tryComplete u = { u with cues := { u.cues with
    strobe := true, dataOut := m.bytes.getD (m.index + 1) 0
    msg := some { m with index := m.index + 1, ack := .none, pulseOver := false } } } := by
  rw [tryComplete, hmsg, ← completeByte_next hnext]
  exact if_pos (by simp [hdone, hbusy])

/-- Busy high holds a byte, but for the last (R145). -/
theorem tryComplete_held (hmsg : u.cues.msg = some m) (hnext : m.index + 1 < m.bytes.length) (hbusy : u.cues.busyIn = true) :
    tryComplete u = u := by
  rw [tryComplete, hmsg]
  exact if_neg (by simp [Message.lastByte, hnext, hbusy])

theorem tryComplete_waits (hmsg : u.cues.msg = some m) (hdone : handshakeDone m = false) : tryComplete u = u := by
  rw [tryComplete, hmsg]
  exact if_neg (by simp [hdone])

/-- The message once the handshake of its byte is over (R144, R145). -/
def handshaken (m : Message) : Message := if m.mode = .acknowledged then { m with ack := .done } else { m with pulseOver := true }

/-- The state once this event has ended the handshake, before the byte completes. -/
def handshakeOver (c : Instr) (s : State) (m : Message) : State :=
  { s with cues := { s.cues with
    ackIn := ackAfter c s, strobe := if c = .acknowledgeInput .fall then s.cues.strobe else false, msg := some (handshaken m) } }

theorem handshaken_acknowledged (h : m.mode = .acknowledged) : handshaken m = { m with ack := .done } := if_pos h

theorem handshaken_busy (h : m.mode = .busy) : handshaken m = { m with pulseOver := true } := if_neg (by simp [h])

/-- Only the phases of the handshake have moved on. -/
theorem handshaken_eq (m : Message) : ∃ ack pulse, handshaken m = { m with ack := ack, pulseOver := pulse } := by
  unfold handshaken
  split <;> exact ⟨_, _, rfl⟩

theorem handshakeDone_handshaken (h : m.mode = .acknowledged ∨ m.mode = .busy) : handshakeDone (handshaken m) = true := by
  obtain h | h := h
  · rw [handshaken_acknowledged h]
    simp [handshakeDone, h]
  · rw [handshaken_busy h]
    simp [handshakeDone, h]

theorem seeAck_acknowledged (e : AckEvent) (hmsg : s.cues.msg = some m) (hmode : m.mode = .acknowledged) :
    seeAck e s = tryComplete { s with cues := { s.cues with
      msg := some { m with ack := ackPhase e m.ack }, strobe := if e = .fall then s.cues.strobe else false } } := by
  rw [seeAck, hmsg]
  exact if_pos hmode

/-- An event that ends the handshake occurs, and then the byte completes if it may. -/
theorem EndsHandshake.exec_eq (h : EndsHandshake c s m) (hpin : s.resetPin = false) (hmsg : s.cues.msg = some m) :
    (m.mode = .timed ∧ exec c s = .next (settle s (completeByte m s)) ∧ ackAfter c s = s.cues.ackIn) ∨
      (m.mode = .acknowledged ∨ m.mode = .busy) ∧ exec c s = .next (settle s (tryComplete (handshakeOver c s m))) := by
  obtain ⟨rfl, hmode, hack, hphase⟩ | ⟨rfl, hmode, hack⟩ | ⟨rfl, hmode, hstrobe⟩ | ⟨rfl, hmode⟩ := h
  · refine .inr ⟨.inl hmode, ?_⟩
    have hlevel : ackLevel .fall s.cues.ackIn = some false := by rw [hack]; rfl
    rw [exec_of_occurs (c := .acknowledgeInput .fall) rfl hpin (show (ackLevel .fall s.cues.ackIn).isSome = true by rw [hlevel]; rfl)]
    show Host.Outcome.next (settle s (ackEvent .fall s)) = _
    rw [ackEvent, hlevel]
    have hsee := seeAck_acknowledged (s := setAck false s) .fall hmsg hmode
    refine congrArg (fun t => Host.Outcome.next (settle s t)) (hsee.trans ?_)
    rw [handshakeOver, handshaken_acknowledged hmode, hphase]
    rfl
  · refine .inr ⟨.inl hmode, ?_⟩
    have hlevel : ackLevel .riseAndFall s.cues.ackIn = some false := by rw [hack]; rfl
    rw [exec_of_occurs (c := .acknowledgeInput .riseAndFall) rfl hpin
      (show (ackLevel .riseAndFall s.cues.ackIn).isSome = true by rw [hlevel]; rfl)]
    show Host.Outcome.next (settle s (ackEvent .riseAndFall s)) = _
    rw [ackEvent, hlevel]
    have hsee := seeAck_acknowledged (s := setAck false s) .riseAndFall hmsg hmode
    refine congrArg (fun t => Host.Outcome.next (settle s t)) (hsee.trans ?_)
    have hafter : ackAfter (.acknowledgeInput .riseAndFall) s = false := hack
    have hphase : ackPhase .riseAndFall m.ack = .done := by cases m.ack <;> rfl
    rw [handshakeOver, handshaken_acknowledged hmode, hafter, hphase]
    rfl
  · refine .inr ⟨.inr hmode, ?_⟩
    rw [exec_of_occurs (c := .strobePulseEnd) rfl hpin (show pulseRunning s = true by simp [pulseRunning, hmsg, hmode, hstrobe])]
    show Host.Outcome.next (settle s (pulseEnd s)) = _
    rw [pulseEnd, hmsg, handshakeOver, handshaken_busy hmode]
    rfl
  · refine .inl ⟨hmode, ?_, rfl⟩
    rw [exec_of_occurs (c := .timedSpacingExpiry) rfl hpin
      (show sendingIn (fun m => decide (m = .timed)) s = true by simp [sendingIn, hmsg, hmode])]
    show Host.Outcome.next (settle s (spacingPassed s)) = _
    rw [spacingPassed, hmsg]

theorem exec_busyFalls (hpin : s.resetPin = false) (hbusy : s.cues.busyIn = true) :
    exec .busyFalls s = .next (settle s (busyFall s)) :=
  exec_of_occurs (c := .busyFalls) rfl hpin hbusy

theorem busyFall_sending (hlink : s.cues.link = .sending) : busyFall s = tryComplete (setBusy false s) := by
  have h : (setBusy false s).cues.link = .sending := hlink
  simp only [busyFall, h]

end Handshake

/-- Settles O47: the handshake ends, and the byte completes or is held by busy. -/
theorem byteCompletesByItsMode : Obligations.ByteCompletesByItsMode := by
  unfold Obligations.ByteCompletesByItsMode
  intro s m hpin hmsg hlink hnext next
  obtain ⟨ack, pulse, hhandshaken⟩ := handshaken_eq m
  have hindex : (handshaken m).index + 1 < (handshaken m).bytes.length := by
    rw [hhandshaken]
    exact hnext
  have hdone : m.mode = .acknowledged ∧ m.ack = .done ∨ m.mode = .busy ∧ m.pulseOver = true ↔ handshakeDone m = true := by
    unfold handshakeDone
    cases m.mode <;> simp
  refine ⟨fun c hends hfree => ?_, fun hbusy hover => ?_, fun c hends hbusy hmode => ?_, fun hbusy hover => ?_,
    fun hmode hack hphase => ?_, fun hmode hstrobe => ?_⟩
  · obtain ⟨hmode, hexec, hafter⟩ | ⟨hmode, hexec⟩ := hends.exec_eq hpin hmsg
    · rw [hexec, completeByte_next hnext, hafter]
    · have hlow : s.cues.busyIn = false := hfree.resolve_right (by rintro h; simp [h] at hmode)
      rw [hexec, tryComplete_next (u := handshakeOver c s m) (m := handshaken m) rfl (handshakeDone_handshaken hmode) hindex hlow,
        hhandshaken]
      rfl
  · rw [exec_busyFalls hpin hbusy, busyFall_sending hlink, tryComplete_next (u := setBusy false s) (m := m) hmsg (hdone.1 hover) hnext rfl]
    rfl
  · obtain ⟨htimed, -⟩ | ⟨-, hexec⟩ := hends.exec_eq hpin hmsg
    · exact absurd htimed hmode
    · rw [hexec, tryComplete_held (u := handshakeOver c s m) (m := handshaken m) rfl hindex hbusy]
      rfl
  · rw [exec_busyFalls hpin hbusy, busyFall_sending hlink,
      tryComplete_waits (u := setBusy false s) (m := m) hmsg (eq_false_of_ne_true fun h => hover (hdone.2 h))]
    rfl
  · have hlevel : ackLevel .rise s.cues.ackIn = some true := by rw [hack]; rfl
    rw [exec_of_occurs (c := .acknowledgeInput .rise) rfl hpin (show (ackLevel .rise s.cues.ackIn).isSome = true by rw [hlevel]; rfl)]
    show Host.Outcome.next (settle s (ackEvent .rise s)) = _
    rw [ackEvent, hlevel]
    have hsee := seeAck_acknowledged (s := setAck true s) .rise hmsg hmode
    refine congrArg (fun t => Host.Outcome.next (settle s t)) (hsee.trans ?_)
    have hrisen : ackPhase .rise m.ack = .risen := by rw [hphase]; rfl
    rw [hrisen]
    exact tryComplete_waits rfl (by simp [handshakeDone, hmode])
  · rw [exec_of_occurs (c := .strobePulseEnd) rfl hpin (show pulseRunning s = true by simp [pulseRunning, hmsg, hmode, hstrobe])]
    show Host.Outcome.next (settle s (pulseEnd s)) = _
    rw [pulseEnd, hmsg]
    exact congrArg (fun t => Host.Outcome.next (settle s t)) (tryComplete_waits rfl (by simp [handshakeDone, hmode]))

/-! ## Timers and inputs (R147, R148) -/

theorem enterGap_eq (s : State) : enterGap s = { s with cues := { s.cues with link := gapState s, gapTimer := gapTime s } } := by
  unfold enterGap gapState gapTime
  split <;> rfl

/-- A change of the acknowledge input with no message in flight. -/
theorem exec_acknowledge_idle {s : State} {e : AckEvent} {level : Bool} (hpin : s.resetPin = false) (hmsg : s.cues.msg = none)
    (hlevel : ackLevel e s.cues.ackIn = some level) : exec (.acknowledgeInput e) s = .next (settle s (setAck level s)) := by
  rw [exec_of_occurs (c := .acknowledgeInput e) rfl hpin (show (ackLevel e s.cues.ackIn).isSome = true by rw [hlevel]; rfl)]
  have hseen : seeAck e (setAck level s) = setAck level s := by
    have h : (setAck level s).cues.msg = none := hmsg
    simp only [seeAck, h]
  show Host.Outcome.next (settle s (ackEvent e s)) = _
  rw [ackEvent, hlevel]
  exact congrArg (fun t => Host.Outcome.next (settle s t)) hseen

/-- Settles O49: each timer and each change of an input, by the state of the link. -/
theorem linkTimersAndInputsMoveTheLink : Obligations.LinkTimersAndInputsMoveTheLink := by
  unfold Obligations.LinkTimersAndInputsMoveTheLink
  intro s hpin gap
  have hgap : enterGap (setBusy false s) = { s with cues := gap } := enterGap_eq (setBusy false s)
  refine ⟨exec_of_occurs (c := .gapTimerExpiry) rfl hpin, exec_of_occurs (c := .busyTimerExpiry) rfl hpin,
    fun hlow => exec_of_occurs (c := .busyRises) rfl hpin (show (!s.cues.busyIn) = true by rw [hlow]; rfl),
    fun hbusy => ⟨fun hlink => ?_, fun hlink => ?_, fun hlink => ?_⟩, fun c n hc hn hpassed hdue => ?_, fun hmsg => ⟨fun hack => ?_,
    fun hack => ?_⟩⟩
  · have h : (setBusy false s).cues.link = .speaking := hlink
    rw [exec_busyFalls hpin hbusy, ← hgap]
    simp only [busyFall, h]
  · have h : (setBusy false s).cues.link = .stalled := hlink
    have hfall : busyFall s = pend .cueLinkChange (enterGap (setBusy false s)) := by simp only [busyFall, h]
    rw [exec_busyFalls hpin hbusy, hfall, hgap]
    rfl
  · have hfall : busyFall s = setBusy false s := by
      obtain h | h | h : (setBusy false s).cues.link = .ready ∨ (setBusy false s).cues.link = .gap ∨ (setBusy false s).cues.link = .off :=
        hlink
      all_goals simp only [busyFall, h]
    rw [exec_busyFalls hpin hbusy, hfall]
    rfl
  · have hocc : notBeforeDue c.order s = true := List.any_eq_true.2 ⟨c, hc, by simp [hn, hpassed, hdue]⟩
    exact exec_of_occurs (c := .notBeforePasses c.order) rfl hpin hocc
  · refine ⟨exec_acknowledge_idle hpin hmsg (by rw [hack]; rfl), ?_⟩
    have hsame : setAck false s = s := by rw [setAck, ← hack]
    rw [exec_acknowledge_idle (level := false) hpin hmsg (by rw [hack]; rfl), hsame]
  · exact exec_acknowledge_idle hpin hmsg (by rw [hack]; rfl)

end Sys2Proof.Machine
end

section
/-! PROOFS. The layouts of chapter 11: frames byte by byte, words field by field. -/

namespace Sys2Proof.Machine

set_option Elab.async false

/-! ## Fields of a packed word -/

theorem field_lt (w : Word) (lo len : Nat) : field w lo len < 2 ^ len := BitVec.isLt _

/-- A layout: fields, each a value, the bit it begins at and its length, that fit and stand one above the other. -/
def LaidOut : List (Nat × Nat × Nat) → Prop
  | [] => True
  | (v, lo, len) :: rest => v < 2 ^ len ∧ (∀ f ∈ rest, lo + len ≤ f.2.1) ∧ LaidOut rest

/-- The word of a layout. -/
def wordOf (layout : List (Nat × Nat × Nat)) : Word := packWord (layout.map fun f => (f.1, f.2.1))

theorem packedSum_field {layout : List (Nat × Nat × Nat)} (h : LaidOut layout) {v lo len : Nat} (hmem : (v, lo, len) ∈ layout) :
    packedSum (layout.map fun f => (f.1, f.2.1)) / 2 ^ lo % 2 ^ len = v := by
  induction layout with
  | nil => cases hmem
  | cons f rest ih =>
    obtain ⟨v', lo', len'⟩ := f
    obtain ⟨hv, habove, hrest⟩ := h
    have habove' : ∀ f ∈ rest.map (fun f => (f.1, f.2.1)), lo' + len' ≤ f.2 := List.forall_mem_map.2 habove
    rw [List.map_cons]
    obtain heq | hmem := List.mem_cons.1 hmem
    · cases heq
      exact packedSum_cons_field hv habove'
    · rw [packedSum_cons_div hv habove' (habove _ hmem)]
      exact ih hrest hmem

theorem packedSum_gap {layout : List (Nat × Nat × Nat)} (h : LaidOut layout) {lo len : Nat}
    (hgap : ∀ f ∈ layout, f.2.1 + f.2.2 ≤ lo ∨ lo + len ≤ f.2.1) :
    packedSum (layout.map fun f => (f.1, f.2.1)) / 2 ^ lo % 2 ^ len = 0 := by
  induction layout with
  | nil => simp [packedSum]
  | cons f rest ih =>
    obtain ⟨v', lo', len'⟩ := f
    obtain ⟨hv, habove, hrest⟩ := h
    have habove' : ∀ f ∈ rest.map (fun f => (f.1, f.2.1)), lo' + len' ≤ f.2 := List.forall_mem_map.2 habove
    obtain ⟨hhead, hgap⟩ := List.forall_mem_cons.1 hgap
    obtain hbelow | hhigh := hhead
    · rw [List.map_cons, packedSum_cons_div hv habove' hbelow]
      exact ih hrest hgap
    · have hall : ∀ f ∈ ((v', lo', len') :: rest).map (fun f => (f.1, f.2.1)), lo + len ≤ f.2 :=
        List.forall_mem_map.2 (List.forall_mem_cons.2 ⟨hhigh, fun f hf =>
          Nat.le_trans hhigh (Nat.le_trans (Nat.le_add_right _ _) (habove f hf))⟩)
      obtain ⟨q, hq⟩ := pow_dvd_packedSum hall
      rw [hq, Nat.pow_add, Nat.mul_assoc, Nat.mul_div_cancel_left _ (Nat.two_pow_pos lo), Nat.mul_mod_right]

/-- A field of a layout, read back. -/
theorem field_of_laidOut {layout : List (Nat × Nat × Nat)} (h : LaidOut layout) {v lo len : Nat} (hmem : (v, lo, len) ∈ layout)
    (hword : lo + len ≤ 32) : field (wordOf layout) lo len = v :=
  (field_packWord _ hword).trans (packedSum_field h hmem)

/-- Bits of no field are 0 (R179). -/
theorem field_of_gap {layout : List (Nat × Nat × Nat)} (h : LaidOut layout) {lo len : Nat}
    (hgap : ∀ f ∈ layout, f.2.1 + f.2.2 ≤ lo ∨ lo + len ≤ f.2.1) (hword : lo + len ≤ 32) : field (wordOf layout) lo len = 0 :=
  (field_packWord _ hword).trans (packedSum_gap h hgap)

theorem flag_of_field {w : Word} {i : Nat} {b : Bool} (h : field w i 1 = bitOf b) : flag w i = b := by
  rw [flag, getLsbD_eq_field, h]
  cases b <;> rfl

/-! ## Codes fit their fields -/

theorem SlotState.code_lt (x : SlotState) : x.code < 2 ^ 3 := by cases x <;> decide

theorem LastResult.code_lt (x : LastResult) : x.code < 2 ^ 3 := by cases x <;> decide

theorem offsetCode_lt (o : Int) : offsetCode o < 2 ^ 2 := by
  unfold offsetCode
  split
  · decide
  · split <;> decide

theorem Primary.code_lt (p : Primary) : p.code < 2 ^ 2 := by cases p <;> decide

theorem Secondary.code_lt (q : Secondary) : q.code < 2 ^ 4 := by cases q <;> decide

theorem ClockState.code_lt (x : ClockState) : x.code < 2 ^ 2 := by cases x <;> decide

theorem ClockSource.code_lt (x : ClockSource) : x.code < 2 ^ 2 := by cases x <;> decide

theorem clockPairCode_lt (x : ClockState) (y : ClockSource) : clockPairCode x y < 2 ^ 3 := by cases x <;> cases y <;> decide

theorem FaultSource.code_lt (x : FaultSource) : x.code < 2 ^ 2 := by cases x <;> decide

theorem PartState.code_lt (x : PartState) : x.code < 2 ^ 2 := by cases x <;> decide

theorem WallMode.code_lt (x : WallMode) : x.code < 2 ^ 2 := by cases x <;> decide

theorem LinkState.code_lt (x : LinkState) : x.code < 2 ^ 3 := by cases x <;> decide

theorem NoticeClass.code_lt (x : NoticeClass) : x.code < 2 ^ 2 := by cases x <;> decide

theorem NoticeResult.code_lt (x : NoticeResult) : x.code < 2 ^ 4 := by cases x <;> decide

/-- The offset code is the offset as a number of two bits. -/
theorem toInt_of_offsetCode {v : BitVec 2} {o : Int} (hlo : -1 ≤ o) (hhi : o ≤ 1) (h : v.toNat = offsetCode o) : v.toInt = o := by
  rw [BitVec.toInt_eq_toNat_cond, h, offsetCode]
  obtain rfl | rfl | rfl : o = -1 ∨ o = 0 ∨ o = 1 := by omega
  all_goals rfl

/-! ## The words -/

/-- The layout of the status word (section 11.1). -/
def statusLayout (s : State) (i : Nat) : List (Nat × Nat × Nat) :=
  let x := slotAt s i
  [(x.state.code, 0, 3), (x.lastResult.code, 3, 3), (bitOf x.capped, 6, 1), (bitOf x.highlight.isSome, 7, 1),
    (offsetCode ((x.keys.map (·.offset)).getD 0), 8, 2), (x.announced, 10, 6), ((positionOf s i).getD 127, 16, 7),
    (x.generation, 24, 8)]

theorem statusWord_eq (s : State) (i : Nat) : statusWord s i = wordOf (statusLayout s i) := rfl

theorem statusLayout_laidOut {s : State} {i : Nat} (hannounced : (slotAt s i).announced ≤ 32)
    (hgeneration : (slotAt s i).generation ≤ 255) (hposition : ∀ p, positionOf s i = some p → p ≤ 95) :
    LaidOut (statusLayout s i) := by
  have hplace : (positionOf s i).getD 127 < 2 ^ 7 := by
    cases h : positionOf s i with
    | none => decide
    | some p => exact Nat.lt_of_le_of_lt (hposition p h) (by decide)
  exact ⟨SlotState.code_lt _, by simp, LastResult.code_lt _, by simp, bitOf_lt _, by simp, bitOf_lt _, by simp, offsetCode_lt _,
    by simp, Nat.lt_of_le_of_lt hannounced (by decide), by simp, hplace, by simp, Nat.lt_of_le_of_lt hgeneration (by decide), nofun,
    trivial⟩

/-- The layout of response word 0 (section 11.2). -/
def responseLayout (words : List Word) (p : Primary) (q : Secondary) : List (Nat × Nat × Nat) :=
  [(commandTag words, 0, 8), (commandCode words, 8, 8), (p.code, 16, 2), (q.code, 24, 4)]

theorem responseHead_eq (words : List Word) (p : Primary) (q : Secondary) :
    responseHead words p q = wordOf (responseLayout words p q) := rfl

theorem responseLayout_laidOut (words : List Word) (p : Primary) (q : Secondary) : LaidOut (responseLayout words p q) :=
  ⟨field_lt _ _ _, by simp, field_lt _ _ _, by simp, p.code_lt, by simp, q.code_lt, nofun, trivial⟩

/-- The layout of the clock word (section 11.4). -/
def clockLayout (c : Clock) : List (Nat × Nat × Nat) :=
  [(c.civil % 60, 0, 8), (c.civil / 60 % 60, 8, 8), (c.civil / 3600, 16, 8), (c.state.code, 24, 2), (c.source.code, 26, 2),
    (bitOf (decide (c.slew ≠ 0)), 28, 1)]

theorem clockWord_eq (c : Clock) : clockWord c = wordOf (clockLayout c) := rfl

theorem clockLayout_laidOut (c : Clock) : LaidOut (clockLayout c) := by
  have hcivil : c.civil < 86400 := Nat.mod_lt _ (by decide)
  exact ⟨by omega, by simp, by omega, by simp, by omega, by simp, c.state.code_lt, by simp, c.source.code_lt, by simp, bitOf_lt _,
    nofun, trivial⟩

/-- The layout of the fault word (section 11.4). -/
def faultLayout (f : Capture) : List (Nat × Nat × Nat) :=
  [(1, 0, 1), (bitOf f.more, 1, 1), (f.addr / 4 % 2 ^ 24, 2, 24), (bitOf f.write, 28, 1), (f.source.code, 29, 2)]

theorem faultWord_eq (f : Capture) : faultWord (some f) = wordOf (faultLayout f) := rfl

theorem faultLayout_laidOut (f : Capture) : LaidOut (faultLayout f) :=
  ⟨by decide, by simp, bitOf_lt _, by simp, Nat.mod_lt _ (Nat.two_pow_pos 24), by simp, bitOf_lt _, by simp, f.source.code_lt, nofun,
    trivial⟩

/-- The layout of the summary word (section 11.4). -/
def summaryLayout (s : State) : List (Nat × Nat × Nat) :=
  [(s.part.state.code, 0, 2), (s.display.mode.code, 2, 2), (clockPairCode s.clock.state s.clock.source, 4, 3),
    (s.cues.link.code, 7, 3), (bitOf s.part.clamped, 10, 1), (83 * s.rowMap.length + s.display.marks.length, 11, 13),
    (9 * s.cues.queue.length + activeNotices s, 24, 8)]

theorem summaryWord_eq (s : State) : summaryWord s = wordOf (summaryLayout s) := rfl

theorem summaryLayout_laidOut {s : State} (hrows : s.rowMap.length ≤ 96) (hmarks : s.display.marks.length ≤ 82)
    (hdepth : s.cues.queue.length ≤ 16) (hactive : activeNotices s ≤ 8) : LaidOut (summaryLayout s) :=
  ⟨s.part.state.code_lt, by simp, s.display.mode.code_lt, by simp, clockPairCode_lt _ _, by simp, s.cues.link.code_lt, by simp,
    bitOf_lt _, by simp, by omega, by simp, by omega, nofun, trivial⟩

/-- The layouts of the first three words of a notice status entry (section 11.5). -/
def noticeLayout (e : Entry) (k : Nat) : List (Nat × Nat × Nat) :=
  match k with
  | 0 => [(e.id, 0, 8), (e.state.code, 8, 2), (e.cls.code, 10, 2), (bitOf e.replacing, 12, 1), (e.result.code, 16, 4), (e.dwell, 24, 6)]
  | 1 => [(e.minutes, 0, 11), (e.text.length, 16, 8)]
  | _ => [(e.phrase, 0, 12)]

theorem noticeWord_eq (e : Entry) {k : Nat} (hk : k < 3) : noticeWord e k = wordOf (noticeLayout e k) := by
  interval_cases k <;> rfl

theorem noticeLayout_laidOut {e : Entry} (hid : e.id ≤ 255) (hdwell : e.dwell ≤ 60) (hminutes : e.minutes ≤ 1440)
    (htext : e.text.length ≤ 240) (hphrase : e.phrase ≤ 4095) (k : Nat) : LaidOut (noticeLayout e k) := by
  unfold noticeLayout
  split
  · exact ⟨by omega, by simp, e.state.code_lt, by simp, e.cls.code_lt, by simp, bitOf_lt _, by simp, e.result.code_lt, by simp,
      by omega, nofun, trivial⟩
  · exact ⟨by omega, by simp, by omega, nofun, trivial⟩
  · exact ⟨by omega, nofun, trivial⟩

/-! ## Frames -/

theorem sumCheck_eq (bytes : List Byte) : sumCheck bytes = (bytes.map (·.toNat)).sum % 65536 := by
  rw [sumCheck, List.sum_eq_foldr, List.foldr_map]

/-- Settles O51: frames by their bytes, words by their fields. -/
theorem framesAndWordsAreLaidOut : Obligations.FramesAndWordsAreLaidOut := by
  unfold Obligations.FramesAndWordsAreLaidOut
  intro lo hi bit remark before behind
  have hremark : ∀ r : Remark, (remark r).1 = r.code ∧ (remark r).2 = r.delay := fun r => by cases r <;> exact ⟨rfl, rfl⟩
  have hbehind : ∀ c, contentTail c = behind c := fun c => by
    obtain ⟨hcode, hdelay⟩ := hremark c.remark
    simp only [behind, hcode, hdelay]
    rfl
  refine ⟨fun drop kind items => ⟨sumCheck (lo drop :: lo kind.code :: lo items.length :: items), ?_⟩, fun c => ?_,
    fun main foot => ?_, fun s i => ?_, fun words p q => ?_, fun c => ⟨rfl, fun k hk => if_neg (Nat.ne_of_lt hk)⟩, fun c ht hroll => ?_,
    ⟨rfl, fun f => ?_⟩, fun s hrows hmarks hdepth hentries => ?_, fun e hid hdwell hminutes htext hphrase haddr => ?_⟩
  · cases kind <;> exact ⟨rfl, sumCheck_eq _⟩
  · rw [rowItems, hbehind]
    rfl
  · cases main with
    | none => cases foot <;> rfl
    | some c => cases foot <;> simp only [boardItems, hbehind] <;> rfl
  · intro x hannounced hgeneration hposition hoffset w
    have hlaid := statusLayout_laidOut hannounced hgeneration hposition
    have hfield : ∀ {v lo len}, (v, lo, len) ∈ statusLayout s i → lo + len ≤ 32 → field w lo len = v := field_of_laidOut hlaid
    have hday : -1 ≤ (x.keys.map (·.offset)).getD 0 ∧ (x.keys.map (·.offset)).getD 0 ≤ 1 := by
      cases hk : x.keys with
      | none => exact ⟨by decide, by decide⟩
      | some k => exact hoffset k hk
    refine ⟨(hfield (v := x.state.code) (by simp [statusLayout, x]) (by decide)).trans (by cases x.state <;> rfl),
      (hfield (v := x.lastResult.code) (by simp [statusLayout, x]) (by decide)).trans (by cases x.lastResult <;> rfl),
      flag_of_field (hfield (by simp [statusLayout, x]) (by decide)), flag_of_field (hfield (by simp [statusLayout, x]) (by decide)),
      toInt_of_offsetCode hday.1 hday.2 (hfield (by simp [statusLayout, x]) (by decide)),
      hfield (by simp [statusLayout, x]) (by decide), hfield (by simp [statusLayout]) (by decide),
      flag_of_field (field_of_gap hlaid (by simp [statusLayout]) (by decide)), hfield (by simp [statusLayout, x]) (by decide)⟩
  · intro w
    have hlaid := responseLayout_laidOut words p q
    have hfield : ∀ {v lo len}, (v, lo, len) ∈ responseLayout words p q → lo + len ≤ 32 → field w lo len = v := field_of_laidOut hlaid
    exact ⟨hfield (by simp [responseLayout, commandTag, commandWord]) (by decide),
      hfield (by simp [responseLayout, commandCode, commandWord]) (by decide),
      (hfield (v := p.code) (by simp [responseLayout]) (by decide)).trans (by cases p <;> rfl),
      field_of_gap hlaid (by simp [responseLayout]) (by decide),
      (hfield (v := q.code) (by simp [responseLayout]) (by decide)).trans (by cases q <;> rfl),
      field_of_gap hlaid (by simp [responseLayout]) (by decide)⟩
  · intro w civil
    have hlaid := clockLayout_laidOut c
    have hfield : ∀ {v lo len}, (v, lo, len) ∈ clockLayout c → lo + len ≤ 32 → field w lo len = v := field_of_laidOut hlaid
    have hcivil : c.civil = civil := rfl
    exact ⟨hfield (by simp [clockLayout, hcivil]) (by decide), hfield (by simp [clockLayout, hcivil]) (by decide),
      hfield (by simp [clockLayout, hcivil]) (by decide),
      (hfield (v := c.state.code) (by simp [clockLayout]) (by decide)).trans (by cases c.state <;> rfl),
      (hfield (v := c.source.code) (by simp [clockLayout]) (by decide)).trans (by cases c.source <;> rfl),
      flag_of_field (hfield (by simp [clockLayout]) (by decide)), field_of_gap hlaid (by simp [clockLayout]) (by decide)⟩
  · intro w
    have hlaid := faultLayout_laidOut f
    have hfield : ∀ {v lo len}, (v, lo, len) ∈ faultLayout f → lo + len ≤ 32 → field w lo len = v := field_of_laidOut hlaid
    exact ⟨flag_of_field (b := true) (hfield (by simp [faultLayout, bitOf]) (by decide)),
      flag_of_field (hfield (by simp [faultLayout]) (by decide)),
      hfield (by simp [faultLayout]) (by decide), field_of_gap hlaid (by simp [faultLayout]) (by decide),
      flag_of_field (hfield (by simp [faultLayout]) (by decide)),
      (hfield (v := f.source.code) (by simp [faultLayout]) (by decide)).trans (by cases f.source <;> rfl),
      flag_of_field (field_of_gap hlaid (by simp [faultLayout]) (by decide))⟩
  · intro w
    have hactive : activeNotices s ≤ 8 := hentries ▸ List.countP_le_length
    have hlaid := summaryLayout_laidOut hrows hmarks hdepth hactive
    have hfield : ∀ {v lo len}, (v, lo, len) ∈ summaryLayout s → lo + len ≤ 32 → field w lo len = v := field_of_laidOut hlaid
    have hpair : field w 4 3 = clockPairCode s.clock.state s.clock.source := hfield (by simp [summaryLayout]) (by decide)
    have hcounts : field w 11 13 = 83 * s.rowMap.length + s.display.marks.length := hfield (by simp [summaryLayout]) (by decide)
    have hqueue : field w 24 8 = 9 * s.cues.queue.length + activeNotices s := hfield (by simp [summaryLayout]) (by decide)
    have hpairs : ∀ e ∈ [(ClockState.unset, ClockSource.internal), (.unset, .masterSecond), (.unset, .masterMinute),
        (.running, .internal), (.locked, .masterSecond), (.locked, .masterMinute), (.freerun, .masterSecond),
        (.freerun, .masterMinute)].zipIdx, clockPairCode e.1.1 e.1.2 = e.2 := by decide
    have hcount : activeNotices s = (s.notices.entries.filter fun e => decide (e.state = .active)).length :=
      List.countP_eq_length_filter
    refine ⟨(hfield (v := s.part.state.code) (by simp [summaryLayout]) (by decide)).trans (by cases s.part.state <;> rfl),
      (hfield (v := s.display.mode.code) (by simp [summaryLayout]) (by decide)).trans (by cases s.display.mode <;> rfl),
      fun e he heq => ?_, (hfield (v := s.cues.link.code) (by simp [summaryLayout]) (by decide)).trans (by cases s.cues.link <;> rfl),
      flag_of_field (hfield (by simp [summaryLayout]) (by decide)), ?_, ?_, ?_, ?_⟩
    · rw [hpair, ← hpairs e he, ← heq]
    all_goals omega
  · intro w
    have hlaid := noticeLayout_laidOut hid hdwell hminutes htext hphrase
    have hfield : ∀ k < 3, ∀ {v lo len}, (v, lo, len) ∈ noticeLayout e k → lo + len ≤ 32 → field (w k) lo len = v :=
      fun k hk _ _ _ hmem hword => (congrArg (field · _ _) (noticeWord_eq e hk)).trans (field_of_laidOut (hlaid k) hmem hword)
    have hzero : ∀ k < 3, ∀ {lo len}, (∀ f ∈ noticeLayout e k, f.2.1 + f.2.2 ≤ lo ∨ lo + len ≤ f.2.1) → lo + len ≤ 32 →
        field (w k) lo len = 0 :=
      fun k hk _ _ hgap hword => (congrArg (field · _ _) (noticeWord_eq e hk)).trans (field_of_gap (hlaid k) hgap hword)
    exact ⟨hfield 0 (by decide) (by simp [noticeLayout]) (by decide),
      (hfield 0 (by decide) (v := e.state.code) (by simp [noticeLayout]) (by decide)).trans (by cases e.state <;> rfl),
      (hfield 0 (by decide) (v := e.cls.code) (by simp [noticeLayout]) (by decide)).trans (by cases e.cls <;> rfl),
      flag_of_field (hfield 0 (by decide) (by simp [noticeLayout]) (by decide)), hzero 0 (by decide) (by simp [noticeLayout]) (by decide),
      (hfield 0 (by decide) (v := e.result.code) (by simp [noticeLayout]) (by decide)).trans (by cases e.result <;> rfl),
      hzero 0 (by decide) (by simp [noticeLayout]) (by decide), hfield 0 (by decide) (by simp [noticeLayout]) (by decide),
      hzero 0 (by decide) (by simp [noticeLayout]) (by decide), hfield 1 (by decide) (by simp [noticeLayout]) (by decide),
      hzero 1 (by decide) (by simp [noticeLayout]) (by decide), hfield 1 (by decide) (by simp [noticeLayout]) (by decide),
      hzero 1 (by decide) (by simp [noticeLayout]) (by decide), hfield 2 (by decide) (by simp [noticeLayout]) (by decide),
      hzero 2 (by decide) (by simp [noticeLayout]) (by decide),
      (BitVec.toNat_ofNat _ _).trans (Nat.mod_eq_of_lt haddr)⟩

end Sys2Proof.Machine
end

section
/-! PROOFS. Marks handed over one after another, as what the pending set is afterwards (R97, R101). -/

namespace Sys2Proof.Machine

set_option Elab.async false

/-! ## Marks asked for -/

/-- A mark that can join: its drop is ONLINE and configured (R97). -/
def listens (s : State) (a : Nat) : Bool := (dropAt s a).online && decide ((dropAt s a).role ≠ .none)

theorem listens_iff {s : State} {a : Nat} : listens s a = true ↔ (dropAt s a).online = true ∧ (dropAt s a).role ≠ .none := by
  simp [listens]

/-- The mark asked for: a drop and whether it is URGENT, which then carries slot i (R97). -/
def askedMark (i : Nat) (x : Nat × Bool) : Mark := markFor x.1 x.2 (if x.2 then some i else none)

/-- An URGENT mark of the drop is asked for. -/
def asksUrgent (asked : List (Nat × Bool)) (drop : Nat) : Bool := asked.any fun x => decide (x.1 = drop) && x.2

/-- An entry of the pending set with the marks asked for its drop. -/
def raisedBy (asked : List (Nat × Bool)) (i : Nat) (e : Mark) : Mark :=
  { e with
    urgent := e.urgent || asksUrgent asked e.drop
    cause := (if asksUrgent asked e.drop then some i else none).or e.cause }

/-- The drops whose marks join at the tail. -/
def joining (asked : List (Nat × Bool)) (s : State) : List Nat :=
  (asked.map (·.1)).eraseDups.filter fun a => listens s a && !s.display.marks.any fun e => decide (e.drop = a)

/-- The pending set with an entry for each drop that joins, before any is raised. -/
def entriesFor (asked : List (Nat × Bool)) (s : State) : List Mark :=
  s.display.marks ++ (joining asked s).zipIdx.map fun e => { drop := e.1, urgent := false, cause := none, seq := s.display.joinSeq + e.2 }

/-- The state with the marks asked for in its pending set. -/
def withAsked (asked : List (Nat × Bool)) (i : Nat) (s : State) : State :=
  { s with display := { s.display with
    marks := (entriesFor asked s).map (raisedBy asked i), joinSeq := s.display.joinSeq + (joining asked s).length } }

section Append

variable {asked : List (Nat × Bool)} {x : Nat × Bool} {i : Nat} {s : State}

theorem asksUrgent_append (drop : Nat) :
    asksUrgent (asked ++ [x]) drop = (asksUrgent asked drop || (decide (x.1 = drop) && x.2)) := by
  simp [asksUrgent]

theorem raisedBy_append_other {e : Mark} (h : (decide (x.1 = e.drop) && x.2) = false) :
    raisedBy (asked ++ [x]) i e = raisedBy asked i e := by
  simp only [raisedBy, asksUrgent_append, h, Bool.or_false]

theorem raisedBy_raise {e : Mark} (h : e.drop = x.1) :
    (raisedBy asked i e).raise (askedMark i x) = raisedBy (asked ++ [x]) i e := by
  simp only [raisedBy, Mark.raise, askedMark, markFor, asksUrgent_append, h, decide_true, Bool.true_and]
  cases x.2 <;> cases asksUrgent asked x.1 <;> simp

theorem joining_append_old (h : x.1 ∈ asked.map (·.1) ∨ listens s x.1 = false ∨ x.1 ∈ s.display.marks.map (·.drop)) :
    joining (asked ++ [x]) s = joining asked s := by
  unfold joining
  rw [List.map_append, List.eraseDups_append, List.filter_append]
  refine List.append_right_eq_self.2 ?_
  obtain h | h := h
  · have hold : List.removeAll (List.map (·.1) [x]) (asked.map (·.1)) = [] :=
      List.filter_eq_nil_iff.2 fun a ha => by
        rw [List.mem_singleton.1 ha, List.elem_iff.2 h]
        exact Bool.false_ne_true
    rw [hold]
    rfl
  · refine List.filter_eq_nil_iff.2 fun a ha => ?_
    obtain rfl : a = x.1 := by simpa using (List.mem_filter.1 (List.mem_eraseDups.1 ha)).1
    obtain h | h := h
    · simp [h]
    · have hany : (s.display.marks.any fun e => decide (e.drop = x.1)) = true := by simpa using h
      simp [hany]

theorem joining_append_new (hnew : x.1 ∉ asked.map (·.1)) (hlistens : listens s x.1 = true)
    (hfree : x.1 ∉ s.display.marks.map (·.drop)) : joining (asked ++ [x]) s = joining asked s ++ [x.1] := by
  have hremove : List.removeAll (List.map (·.1) [x]) (asked.map (·.1)) = [x.1] := by simpa [List.removeAll] using hnew
  have hany : (s.display.marks.any fun e => decide (e.drop = x.1)) = false := by simpa using hfree
  unfold joining
  rw [List.map_append, List.eraseDups_append, List.filter_append, hremove]
  simp [List.eraseDups_cons, hlistens, hany]

end Append

theorem entriesFor_drops (asked : List (Nat × Bool)) (s : State) :
    (entriesFor asked s).map (·.drop) = s.display.marks.map (·.drop) ++ joining asked s := by
  simp [entriesFor, Function.comp_def]

/-- One mark more. -/
theorem joinMark_withAsked {asked : List (Nat × Bool)} {x : Nat × Bool} {i : Nat} {s : State}
    (h : ∀ e ∈ s.display.marks, asksUrgent (asked ++ [x]) e.drop = true → listens s e.drop = true) :
    joinMark (askedMark i x) (withAsked asked i s) = withAsked (asked ++ [x]) i s := by
  have hdrops : ((entriesFor asked s).map (raisedBy asked i)).map (·.drop) = s.display.marks.map (·.drop) ++ joining asked s := by
    rw [List.map_map, ← entriesFor_drops]
    rfl
  by_cases hlistens : listens s x.1 = true
  · have hgo : ¬((dropAt s x.1).online = false ∨ (dropAt s x.1).role = .none) := by
      obtain ⟨honline, hrole⟩ := listens_iff.1 hlistens
      simp [honline, hrole]
    by_cases hthere : x.1 ∈ s.display.marks.map (·.drop) ++ joining asked s
    · have hjoining : joining (asked ++ [x]) s = joining asked s := by
        refine joining_append_old ?_
        obtain hmem | hmem := List.mem_append.1 hthere
        · exact .inr (.inr hmem)
        · exact .inl (List.mem_eraseDups.1 (List.mem_filter.1 hmem).1)
      have hentries : entriesFor (asked ++ [x]) s = entriesFor asked s := by rw [entriesFor, hjoining, entriesFor]
      have hany : ((entriesFor asked s).map (raisedBy asked i)).any (fun e => decide (e.drop = x.1)) = true := by
        rw [← hdrops] at hthere
        obtain ⟨e, he, hdrop⟩ := List.mem_map.1 hthere
        exact List.any_eq_true.2 ⟨e, he, decide_eq_true hdrop⟩
      have hmarks : ((entriesFor asked s).map (raisedBy asked i)).map (fun e => if e.drop = x.1 then e.raise (askedMark i x) else e) =
          (entriesFor asked s).map (raisedBy (asked ++ [x]) i) := by
        rw [List.map_map]
        refine List.map_congr_left fun e _ => ?_
        by_cases hdrop : e.drop = x.1
        · exact (if_pos hdrop).trans (raisedBy_raise hdrop)
        · exact (if_neg hdrop).trans (raisedBy_append_other (by simp [Ne.symm hdrop])).symm
      have hafter : withAsked (asked ++ [x]) i s = { s with display := { s.display with
          marks := ((entriesFor asked s).map (raisedBy asked i)).map fun e => if e.drop = x.1 then e.raise (askedMark i x) else e
          joinSeq := s.display.joinSeq + (joining asked s).length } } := by
        rw [withAsked, hentries, hjoining, hmarks]
      exact (if_neg hgo).trans ((if_pos hany).trans hafter.symm)
    · obtain ⟨hfree, hnot⟩ := not_or.1 (mt List.mem_append.2 hthere)
      have hnew : x.1 ∉ asked.map (·.1) := by
        intro hmem
        refine hnot (List.mem_filter.2 ⟨List.mem_eraseDups.2 hmem, ?_⟩)
        have hany : (s.display.marks.any fun e => decide (e.drop = x.1)) = false := by simpa using hfree
        simp [hlistens, hany]
      have hjoining := joining_append_new hnew hlistens hfree
      have hentries : entriesFor (asked ++ [x]) s = entriesFor asked s ++
          [{ drop := x.1, urgent := false, cause := none, seq := s.display.joinSeq + (joining asked s).length }] := by
        rw [entriesFor, hjoining, entriesFor, List.zipIdx_append, List.map_append, List.append_assoc]
        simp
      have hany : ¬((entriesFor asked s).map (raisedBy asked i)).any (fun e => decide (e.drop = x.1)) = true := by
        intro hany
        obtain ⟨e, he, hdrop⟩ := List.any_eq_true.1 hany
        exact hthere (hdrops ▸ List.mem_map.2 ⟨e, he, of_decide_eq_true hdrop⟩)
      have hrest : (entriesFor asked s).map (raisedBy (asked ++ [x]) i) = (entriesFor asked s).map (raisedBy asked i) := by
        refine List.map_congr_left fun e he => raisedBy_append_other ?_
        have hdrop : x.1 ≠ e.drop := fun hdrop =>
          hthere (entriesFor_drops asked s ▸ List.mem_map.2 ⟨e, he, hdrop.symm⟩)
        simp [hdrop]
      have hlast : raisedBy (asked ++ [x]) i
          { drop := x.1, urgent := false, cause := none, seq := s.display.joinSeq + (joining asked s).length } =
          { askedMark i x with seq := s.display.joinSeq + (joining asked s).length } := by
        have hnone : asksUrgent asked x.1 = false := by
          refine List.any_eq_false.2 fun y hy => ?_
          have hne : y.1 ≠ x.1 := fun hxy => hnew (List.mem_map.2 ⟨y, hy, hxy⟩)
          simp [hne]
        simp [raisedBy, asksUrgent_append, hnone, askedMark, markFor]
      have hafter : withAsked (asked ++ [x]) i s = { s with display := { s.display with
          marks := (entriesFor asked s).map (raisedBy asked i) ++
            [{ askedMark i x with seq := s.display.joinSeq + (joining asked s).length }]
          joinSeq := s.display.joinSeq + (joining asked s).length + 1 } } := by
        rw [withAsked, hentries, hjoining, List.map_append, List.map_singleton, hrest, hlast, List.length_append]
        rfl
      exact (if_neg hgo).trans ((if_neg hany).trans hafter.symm)
  · have hdeaf := eq_false_of_ne_true hlistens
    have hstop : (dropAt s x.1).online = false ∨ (dropAt s x.1).role = .none := by
      by_contra hgo
      rw [not_or, Bool.not_eq_false] at hgo
      exact hlistens (listens_iff.2 hgo)
    have hjoining : joining (asked ++ [x]) s = joining asked s := joining_append_old (.inr (.inl hdeaf))
    have hentries : entriesFor (asked ++ [x]) s = entriesFor asked s := by rw [entriesFor, hjoining, entriesFor]
    have hmarks : (entriesFor asked s).map (raisedBy (asked ++ [x]) i) = (entriesFor asked s).map (raisedBy asked i) := by
      refine List.map_congr_left fun e he => raisedBy_append_other ?_
      by_contra hboth
      rw [Bool.not_eq_false, Bool.and_eq_true, decide_eq_true_eq] at hboth
      obtain ⟨hdrop, hurgent⟩ := hboth
      obtain hmem | hmem := List.mem_append.1 (entriesFor_drops asked s ▸ List.mem_map.2 ⟨e, he, rfl⟩ : e.drop ∈ _ ++ _)
      · obtain ⟨e', he', hdrop'⟩ := List.mem_map.1 hmem
        have hasks : asksUrgent (asked ++ [x]) e'.drop = true := by
          rw [asksUrgent_append, hdrop', ← hdrop, hurgent]
          simp
        have := h e' he' hasks
        rw [hdrop', ← hdrop, hdeaf] at this
        cases this
      · have := (List.mem_filter.1 hmem).2
        rw [← hdrop, hdeaf] at this
        cases this
    have hafter : withAsked (asked ++ [x]) i s = withAsked asked i s := by
      rw [withAsked, hentries, hjoining, hmarks]
      rfl
    exact (if_pos hstop).trans hafter.symm

/-- Marks that join one after another. -/
theorem foldl_joinMark_eq {asked : List (Nat × Bool)} {i : Nat} {s : State}
    (h : ∀ e ∈ s.display.marks, asksUrgent asked e.drop = true → listens s e.drop = true) :
    (asked.map (askedMark i)).foldl (fun t m => joinMark m t) s = withAsked asked i s := by
  induction asked using List.reverseRecOn with
  | nil =>
    have hsame : ∀ e, raisedBy [] i e = e := fun e => by simp [raisedBy, asksUrgent]
    simp [withAsked, entriesFor, joining, funext hsame]
  | append_singleton asked x ih =>
    rw [List.map_append, List.foldl_append, ih fun e he hasks => h e he (by rw [asksUrgent_append, hasks, Bool.true_or])]
    exact joinMark_withAsked h

/-- What `withAsked` says of the pending set. -/
theorem marksJoin_of_display {asked : List (Nat × Bool)} {i : Nat} {s t : State}
    (h : t.display.marks = (withAsked asked i s).display.marks ∧ t.display.joinSeq = (withAsked asked i s).display.joinSeq) :
    MarksJoin asked i s t := by
  obtain ⟨hmarks, hseq⟩ := h
  refine ⟨hmarks.trans ?_, hseq⟩
  show (entriesFor asked s).map (raisedBy asked i) = _
  rw [entriesFor, List.map_append, List.map_map]
  refine congrArg₂ _ rfl (List.map_congr_left fun e _ => ?_)
  simp only [Function.comp, raisedBy, Bool.false_or, Option.or_none]
  rfl

end Sys2Proof.Machine
end

section
/-! PROOFS. The comparison of rendered contents (R89 to R91), and the marks it makes as what the pending set is afterwards. -/

namespace Sys2Proof.Machine

set_option Elab.async false

/-! ## Marks handed over (R101) -/

/-- The marks that stand for a mark handed over: in HOLD, of an URGENT wall row mark, one for each drop that shows the causing
slot (R101). -/
def retarget (s : State) (m : Mark) : List Mark :=
  match m.cause with
  | some x =>
    if s.display.mode = .hold ∧ m.urgent ∧ isWall s m.drop then (dropsShowing s x).map fun a => { m with drop := a } else [m]
  | none => [m]

theorem handMark_eq_foldl (m : Mark) (s : State) : handMark m s = (retarget s m).foldl (fun t m => joinMark m t) s := by
  cases hcause : m.cause with
  | none => simp only [handMark, retarget, hcause, List.foldl_cons, List.foldl_nil]
  | some x =>
    simp only [handMark, retarget, hcause]
    split
    · rw [List.foldl_map]
    · rfl

theorem MarksOnly.retarget {s t : State} (h : MarksOnly s t) (m : Mark) : Machine.retarget t m = Machine.retarget s m := by
  obtain ⟨marks, seq, rfl⟩ := h
  rfl

/-- Marks handed over are those that stand for them, joined one after another. -/
theorem handMarks_eq_foldl (ms : List Mark) (s : State) :
    handMarks ms s = (ms.flatMap (retarget s)).foldl (fun t m => joinMark m t) s := by
  induction ms generalizing s with
  | nil => rfl
  | cons m rest ih =>
    have hsame : retarget (handMark m s) = retarget s := funext fun m' => (handMark_frame m s).retarget m'
    show handMarks rest (handMark m s) = _
    rw [ih, hsame, List.flatMap_cons, List.foldl_append, handMark_eq_foldl]

/-- Marks handed over that carry no cause (R97). -/
theorem handMarks_routine (drops : List Nat) (i : Nat) (s : State) :
    handMarks (drops.map fun a => markFor a false none) s = withAsked (drops.map fun a => (a, false)) i s := by
  have hmarks : (drops.map fun a => markFor a false none).flatMap (retarget s) =
      (drops.map fun a => (a, false)).map (askedMark i) := by
    rw [List.flatMap_map, List.map_map]
    exact List.map_eq_flatMap.symm
  rw [handMarks_eq_foldl, hmarks]
  refine foldl_joinMark_eq fun e _ hasks => ?_
  simp [asksUrgent] at hasks

/-! ## SET WALL MODE (R97, R99, R104) -/

theorem changeMode_leaves {s : State} {m : WallMode} (hmode : s.display.mode = .hold) (hm : m ≠ .hold) :
    changeMode m s = handMarks (leavingHoldMarks s) { s with display := { s.display with mode := m } } :=
  if_pos ⟨hmode, hm⟩

theorem changeMode_stays {s : State} {m : WallMode} (h : s.display.mode ≠ .hold ∨ m = .hold) :
    changeMode m s = { s with display := { s.display with mode := m } } :=
  if_neg fun hboth => h.elim (fun h => h hboth.1) hboth.2

/-- The rows that are out of step on leaving HOLD. -/
def rowsOutOfStep (s : State) : List Nat :=
  (List.range s.params.w).filter fun row => decide ((dropAt s (s.params.firstWall + row)).shown.map (·.1) ≠ s.rowMap[row]?)

theorem leavingHoldMarks_eq (s : State) :
    leavingHoldMarks s = ((rowsOutOfStep s).map (s.params.firstWall + ·)).map fun a => markFor a false none := by
  rw [List.map_map]
  rfl

theorem wallModeOf_eq {code : Nat} (h : code ≤ 2) :
    wallModeOf code = if code = 0 then .run else if code = 1 then .hold else .freeze := by
  interval_cases code <;> rfl

/-- Settles O33: a refusal, or the mode and, on leaving HOLD, the marks of the rows out of step. -/
theorem setWallModeReplacesTheMode : Obligations.SetWallModeReplacesTheMode := by
  unfold Obligations.SetWallModeReplacesTheMode
  intro err s a h code mode previous
  have hexec := exec_of_taken (c := .setWallMode err) (act := setWallModeCommand) err h rfl rfl
  have hprevious : s.display.mode.code = previous := by
    simp only [previous]
    cases s.display.mode <;> rfl
  refine ⟨_, hexec, fun hcode => ?_, fun hcode => ?_⟩
  · rw [show setWallModeCommand s.cmd.staging (commandTaken err s) = refuse .badParameter (commandTaken err s) from if_pos hcode]
    exact settle_refuse err _ s
  · have hmode : wallModeOf code = mode := wallModeOf_eq hcode
    obtain ⟨marks, seq, hchange, hstays, hleaves⟩ : ∃ marks seq,
        changeMode mode (commandTaken err s) =
          { commandTaken err s with display := { s.display with mode := mode, marks := marks, joinSeq := seq } } ∧
        (s.display.mode ≠ .hold ∨ mode = .hold → marks = s.display.marks ∧ seq = s.display.joinSeq) ∧
        (s.display.mode = .hold → mode ≠ .hold →
          let u := withAsked ((rowsOutOfStep s).map fun row => (s.params.firstWall + row, false)) 0 s
          marks = u.display.marks ∧ seq = u.display.joinSeq) := by
      by_cases hleaves : s.display.mode = .hold ∧ mode ≠ .hold
      · obtain ⟨hhold, hnot⟩ := hleaves
        have hrows : (((rowsOutOfStep s).map (s.params.firstWall + ·)).map fun a => (a, false)) =
            (rowsOutOfStep s).map fun row => (s.params.firstWall + row, false) := List.map_map
        refine ⟨_, _, ?_, fun h => absurd hhold (h.resolve_right hnot), fun _ _ => ⟨rfl, rfl⟩⟩
        rw [changeMode_leaves (s := commandTaken err s) hhold hnot, leavingHoldMarks_eq, handMarks_routine _ 0,
          show rowsOutOfStep (commandTaken err s) = rowsOutOfStep s from rfl,
          show (commandTaken err s).params = s.params from rfl, hrows]
        rfl
      · have hstays : s.display.mode ≠ .hold ∨ mode = .hold := by
          by_contra h
          rw [not_or, not_not] at h
          exact hleaves h
        refine ⟨s.display.marks, s.display.joinSeq, changeMode_stays hstays, fun _ => ⟨rfl, rfl⟩, fun hhold hnot => ?_⟩
        exact absurd ⟨hhold, hnot⟩ hleaves
    have hact : setWallModeCommand s.cmd.staging (commandTaken err s) =
        completeDone [resultOf previous]
          { commandTaken err s with display := { s.display with mode := mode, marks := marks, joinSeq := seq } } := by
      rw [← hprevious, ← hchange, ← hmode]
      exact if_neg (Nat.not_lt_of_le hcode)
    have hexecuting : Executing err [] s
        { commandTaken err s with display := { s.display with mode := mode, marks := marks, joinSeq := seq } } :=
      (executing_commandTaken err s).of_eq rfl rfl rfl
    obtain ⟨hanswered, hatt, honly⟩ := settle_complete hexecuting
      (w := { s with display := { s.display with mode := mode, marks := marks, joinSeq := seq } }) rfl .done .none [resultOf previous]
    rw [hact]
    exact ⟨hanswered, hatt, honly, hstays, fun hhold hnot => marksJoin_of_display (hleaves hhold hnot)⟩

end Sys2Proof.Machine
end

section
/-! PROOFS. The comparison of rendered contents (R89 to R91), and the marks it makes as what the pending set is afterwards. -/

namespace Sys2Proof.Machine

set_option Elab.async false

/-! ## Rendered contents -/

/-- Every wall row and board has the same rendered content in both states. -/
def SameContent (s t : State) : Prop :=
  (∀ row, rowContent t row = rowContent s row) ∧ ∀ p, boardContent t p = boardContent s p

/-- The slot as far as its content goes. -/
def Slot.SameShown (x y : Slot) : Prop :=
  y.applied = x.applied ∧ y.keys = x.keys ∧ y.state = x.state ∧ y.highlight = x.highlight

theorem contentOf_sameShown {q : Params} {c : Clock} {x y : Slot} (h : x.SameShown y) (r : Record) (ke : Int) :
    contentOf q c y r ke = contentOf q c x r ke := by
  obtain ⟨-, -, hstate, hhighlight⟩ := h
  cases x
  cases y
  cases hstate
  cases hhighlight
  rfl

theorem slotContent_sameShown {s t : State} {i : Nat} (hclock : t.clock = s.clock) (hparams : t.params = s.params)
    (h : (slotAt s i).SameShown (slotAt t i)) : slotContent t i = slotContent s i := by
  have hcontent := contentOf_sameShown (q := s.params) (c := s.clock) h
  obtain ⟨happlied, hkeys, -⟩ := h
  simp only [slotContent, happlied, hkeys, hclock, hparams, hcontent]

/-- Contents read the row map, the footnotes, the clock, the parameters and what each slot shows. -/
theorem sameContent_of_shown {s t : State} (hrows : t.rowMap = s.rowMap) (hfoot : t.footnotes = s.footnotes) (hclock : t.clock = s.clock)
    (hparams : t.params = s.params) (h : ∀ i, (slotAt s i).SameShown (slotAt t i)) : SameContent s t := by
  have hslot : ∀ i, slotContent t i = slotContent s i := fun i => slotContent_sameShown hclock hparams (h i)
  have hplatform : ∀ i, platformOf t i = platformOf s i := fun i => by simp only [platformOf, (h i).1]
  have hservice : ∀ i, serviceOf t i = serviceOf s i := fun i => by simp only [serviceOf, (h i).1]
  constructor
  · intro row
    simp only [rowContent, positionSlot, hrows, hslot]
  · intro p
    simp only [boardContent, mainField, mainSlot, footnoteShown, footnoteAt, hrows, hfoot, hslot, hplatform, hservice]

theorem sameContent_of_eq {s t : State} (hslots : t.slots = s.slots) (hrows : t.rowMap = s.rowMap) (hfoot : t.footnotes = s.footnotes)
    (hclock : t.clock = s.clock) (hparams : t.params = s.params) : SameContent s t := by
  refine sameContent_of_shown hrows hfoot hclock hparams fun i => ?_
  have hslot : slotAt t i = slotAt s i := by simp only [slotAt, hslots]
  rw [hslot]
  exact ⟨rfl, rfl, rfl, rfl⟩

theorem SameContent.symm {s t : State} (h : SameContent s t) : SameContent t s :=
  ⟨fun row => (h.1 row).symm, fun p => (h.2 p).symm⟩

theorem SameContent.refl (s : State) : SameContent s s := ⟨fun _ => rfl, fun _ => rfl⟩

/-- What is asked for reads the contents, the layout, the wall mode and what each drop shows. -/
theorem askedMarks_congr {urgent : Bool} {i : Nat} {s s' t t' : State} (hparams : s'.params = s.params)
    (hmode : s'.display.mode = s.display.mode) (hdrop : ∀ a, dropAt s' a = dropAt s a) (hs : SameContent s s')
    (ht : SameContent t t') : askedMarks urgent i s' t' = askedMarks urgent i s t := by
  obtain ⟨hsrow, hsboard⟩ := hs
  obtain ⟨htrow, htboard⟩ := ht
  simp only [askedMarks, hparams, hmode, hdrop, hsrow, hsboard, htrow, htboard]

/-- Where no content differs, nothing is asked for. -/
theorem askedMarks_sameContent {urgent : Bool} {i : Nat} {s t : State} (h : SameContent s t) : askedMarks urgent i s t = [] := by
  obtain ⟨hrow, hboard⟩ := h
  simp only [askedMarks, hrow, hboard, ne_eq, not_true_eq_false, decide_false, List.filter_false, List.flatMap_nil, List.map_nil,
    List.append_nil]

/-! ## Roles of the wall rows and the boards -/

theorem isWall_row {s : State} (hp : ParamsSound s) (hd : DisplaySound s) {row : Nat} (hrow : row < s.params.w) :
    isWall s (s.params.firstWall + row) = true := by
  obtain ⟨-, hlast, -⟩ := hp
  obtain ⟨-, hroles, -⟩ := hd
  have hrole : (dropAt s (s.params.firstWall + row)).role = .wall row := by
    rw [(hroles _ (by omega)).1, roleOf, if_pos (by omega), Nat.add_sub_cancel_left]
  rw [isWall, hrole]

theorem isWall_board {s : State} (hp : ParamsSound s) (hd : DisplaySound s) {k : Nat} (hk : k < s.params.p) :
    isWall s (s.params.boardBase + k) = false := by
  obtain ⟨-, -, hlast, hnodup, -⟩ := hp
  obtain ⟨-, hroles, -⟩ := hd
  have hboard : s.params.boardBase + k ∈ (List.range s.params.p).map (s.params.boardBase + ·) :=
    List.mem_map.2 ⟨k, List.mem_range.2 hk, rfl⟩
  have hnot : ¬(s.params.firstWall ≤ s.params.boardBase + k ∧ s.params.boardBase + k < s.params.firstWall + s.params.w) := by
    rintro ⟨hlo, hhi⟩
    have hwall : s.params.boardBase + k ∈ (List.range s.params.w).map (s.params.firstWall + ·) :=
      List.mem_map.2 ⟨s.params.boardBase + k - s.params.firstWall, List.mem_range.2 (by omega), by omega⟩
    exact (List.nodup_append.1 hnodup).2.2 _ (List.mem_append_left _ hwall) _ hboard rfl
  unfold isWall
  rw [(hroles _ (by omega)).1, roleOf, if_neg hnot]
  split
  · rename_i h
    split at h
    · cases h
    · split at h
      · cases h
      · split at h <;> cases h
  · rfl

/-! ## The comparison -/

/-- A cause gives its marks the class and the slot of what is asked for. -/
def Asks (cause : Option Cause) (urgent : Bool) (i : Nat) : Prop :=
  ∀ drop concerned, causedMark cause drop concerned = askedMark i (drop, urgent && concerned i)

theorem asks_none (i : Nat) : Asks none false i := fun _ _ => rfl

theorem asks_some (i : Nat) (urgent : Bool) : Asks (some { slot := i, urgent := urgent }) urgent i := by
  intro drop concerned
  show (if (urgent && concerned i) = true then markFor drop true (some i) else markFor drop false none) = _
  cases h : urgent && concerned i <;> rfl

theorem filterMap_ite_none {α β : Type} (p : α → Prop) [DecidablePred p] (g : α → β) (l : List α) :
    (l.filterMap fun a => if p a then none else some (g a)) = (l.filter fun a => decide ¬p a).map g := by
  induction l with
  | nil => rfl
  | cons a l ih => by_cases h : p a <;> simp [h, ih]

/-- In HOLD an URGENT mark of a wall row gives place to those of the drops that show the slot (R101). -/
theorem retarget_row {s : State} {i drop : Nat} {urgent : Bool} (hwall : isWall s drop = true) :
    retarget s (askedMark i (drop, urgent)) =
      (if urgent = true then
        if s.display.mode = .hold then (dropsShowing s i).map fun a => (a, true) else [(drop, true)]
      else [(drop, false)]).map (askedMark i) := by
  cases urgent with
  | false => rfl
  | true =>
    by_cases hmode : s.display.mode = .hold
    · rw [if_pos rfl, if_pos hmode, List.map_map]
      exact if_pos ⟨hmode, rfl, hwall⟩
    · rw [if_pos rfl, if_neg hmode]
      exact if_neg fun h => hmode h.1

theorem retarget_other {s : State} {i drop : Nat} {urgent : Bool} (hwall : isWall s drop = false) :
    retarget s (askedMark i (drop, urgent)) = [askedMark i (drop, urgent)] := by
  cases urgent with
  | false => rfl
  | true =>
    refine if_neg fun h => ?_
    obtain ⟨-, -, hw⟩ : s.display.mode = .hold ∧ true = true ∧ isWall s drop = true := h
    rw [hwall] at hw
    cases hw

/-- The marks of the comparison, as they join (R89 to R91, R101). -/
theorem contentMarks_retarget {cause : Option Cause} {urgent : Bool} {i : Nat} {s t : State} (hcause : Asks cause urgent i)
    (hp : ParamsSound s) (hd : DisplaySound s) (hparams : t.params = s.params) (hdisplay : t.display = s.display) :
    (contentMarks cause s t).flatMap (retarget t) = (askedMarks urgent i s t).map (askedMark i) := by
  have hretarget : retarget t = retarget s := by
    have hdrop : ∀ a, dropAt t a = dropAt s a := fun a => by simp only [dropAt, hdisplay]
    have hwall : ∀ a, isWall t a = isWall s a := fun a => by simp only [isWall, hdrop]
    have hshowing : ∀ x, dropsShowing t x = dropsShowing s x := fun x => by simp only [dropsShowing, wallDrops, hdrop, hparams]
    funext m
    unfold retarget
    simp only [hwall, hshowing, hdisplay]
  have hrows : (List.range t.params.w).filterMap (rowMark cause s t) =
      ((List.range s.params.w).filter fun row => decide ¬rowContent s row = rowContent t row).map fun row =>
        askedMark i (s.params.firstWall + row, urgent && (concernsRow i (rowContent s row) || concernsRow i (rowContent t row))) := by
    rw [hparams, ← filterMap_ite_none]
    refine List.filterMap_congr fun row _ => ?_
    simp only [rowMark, hcause _ _, hparams]
  have hboards : (List.range t.params.p).filterMap (fun k => boardMark cause s t (k + 1)) =
      ((List.range s.params.p).filter fun k => decide ¬boardContent s (k + 1) = boardContent t (k + 1)).map fun k =>
        askedMark i (s.params.boardBase + k,
          urgent && (concernsBoard i (boardContent s (k + 1)) || concernsBoard i (boardContent t (k + 1)))) := by
    rw [hparams, ← filterMap_ite_none]
    refine List.filterMap_congr fun k _ => ?_
    simp only [boardMark, hcause _ _, hparams, ← Nat.add_assoc, Nat.add_sub_cancel]
  rw [contentMarks, hrows, hboards, hretarget, List.flatMap_append, List.flatMap_map, List.flatMap_map, askedMarks, List.map_append]
  refine congrArg₂ _ ?_ ?_
  · rw [List.map_flatMap]
    refine List.flatMap_congr fun row hrow => ?_
    have hw := List.mem_range.1 (List.mem_filter.1 hrow).1
    rw [retarget_row (isWall_row hp hd hw)]
    rfl
  · rw [List.map_map, List.map_eq_flatMap]
    refine List.flatMap_congr fun k hk => ?_
    have hk' := List.mem_range.1 (List.mem_filter.1 hk).1
    rw [retarget_other (isWall_board hp hd hk')]
    rfl

/-- An event with the comparison of R89 is the event, and the marks asked for. -/
theorem compared_eq {cause : Option Cause} {urgent : Bool} {i : Nat} {f : State → State} {s : State} (hcause : Asks cause urgent i)
    (hp : ParamsSound s) (hd : DisplaySound s) (hparams : (f s).params = s.params) (hdisplay : (f s).display = s.display) :
    compared cause f s = withAsked (askedMarks urgent i s (f s)) i (f s) := by
  rw [compared, handMarks_eq_foldl, contentMarks_retarget hcause hp hd hparams hdisplay]
  refine foldl_joinMark_eq fun e he _ => ?_
  obtain ⟨-, -, -, hmarks, -⟩ := hd
  rw [hdisplay] at he
  have hdrop : dropAt (f s) e.drop = dropAt s e.drop := by simp only [dropAt, hdisplay]
  rw [listens_iff, hdrop]
  exact hmarks e he

/-- The pending set of an event with the comparison of R89, whatever else the event and its end change. -/
theorem marksJoin_of_compared {cause : Option Cause} {urgent : Bool} {i : Nat} {f : State → State} {s₀ s t : State}
    (hcause : Asks cause urgent i) (hp : ParamsSound s) (hd : DisplaySound s) (hparams : (f s).params = s.params)
    (hdisplay : (f s).display = s.display) (hparams₀ : s₀.params = s.params) (hdisplay₀ : s₀.display = s.display)
    (hsame₀ : SameContent s s₀) (hsame : SameContent (f s) t)
    (hmarks : t.display.marks = (compared cause f s).display.marks ∧ t.display.joinSeq = (compared cause f s).display.joinSeq) :
    MarksJoin (askedMarks urgent i s₀ t) i s₀ t := by
  have hdrop₀ : ∀ a, dropAt s₀ a = dropAt s a := fun a => by simp only [dropAt, hdisplay₀]
  have hasked : askedMarks urgent i s₀ t = askedMarks urgent i s (f s) :=
    askedMarks_congr hparams₀ (by rw [hdisplay₀]) hdrop₀ hsame₀ hsame
  rw [hasked]
  refine marksJoin_of_display ?_
  rw [compared_eq hcause hp hd hparams hdisplay] at hmarks
  have hwith : (withAsked (askedMarks urgent i s (f s)) i s₀).display = (withAsked (askedMarks urgent i s (f s)) i (f s)).display := by
    have hjoining : joining (askedMarks urgent i s (f s)) s₀ = joining (askedMarks urgent i s (f s)) (f s) := by
      simp only [joining, listens, dropAt, hdisplay₀, hdisplay]
    simp only [withAsked, entriesFor, hjoining, hdisplay₀, hdisplay]
  rw [hwith]
  exact hmarks

end Sys2Proof.Machine
end

section
/-! PROOFS. Commits: what a write of a commit word comes to, a commit refused, a commit that vacates, and the marks of a commit. -/

namespace Sys2Proof.Machine

set_option Elab.async false

/-! ## The write of a commit word (R4, R5, R24) -/

theorem else_of_ite_eq {α : Type} {p : Prop} [Decidable p] {x y z : α} (h : (if p then x else y) = z) (hx : x ≠ z) : y = z := by
  by_cases hp : p
  · exact absurd ((if_pos hp).symm.trans h) hx
  · exact (if_neg hp).symm.trans h

theorem lt_of_classOf_commit {o i : Nat} (h : classOf o = .commit i) : i < 96 := by
  unfold classOf at h
  iterate 11 replace h := else_of_ite_eq h nofun
  by_cases hhi : o < 0x1C00
  · rw [if_pos hhi] at h
    iterate 3 replace h := else_of_ite_eq h nofun
    obtain rfl := WordClass.commit.inj h
    omega
  · rw [if_neg hhi] at h
    cases h

theorem lt_of_addrClass_commit {strap : BitVec 4} {o i : Nat} (h : addrClass strap o = .commit i) : i < 96 := by
  unfold addrClass at h
  split at h
  · exact lt_of_classOf_commit h
  · cases h

/-- The state once the write of slot i's commit word has completed, its capture made. -/
def commitWritten (err : Bool) (a : Access) (i : Nat) (s : State) : State :=
  { s with mem := s.mem.answered (.writeDone err), slots := s.slots.set i { slotAt s i with staging := stagedCommit s a i } }

section Commit

variable {s : State} {a : Access} {i : Nat} (err : Bool)

theorem slotAt_commitWritten_same (h : CommitAt s a i) :
    slotAt (commitWritten err a i s) i = { slotAt s i with staging := stagedCommit s a i } := by
  obtain ⟨⟨-, -, -, hcls⟩, -, hlength⟩ := h
  have hi := lt_of_addrClass_commit hcls
  exact slotAt_setSlot_same s _ (by omega)

theorem slotAt_commitWritten_shown (h : CommitAt s a i) (j : Nat) :
    (slotAt s j).SameShown (slotAt (commitWritten err a i s) j) := by
  by_cases hj : j = i
  · rw [hj, slotAt_commitWritten_same err h]
    exact ⟨rfl, rfl, rfl, rfl⟩
  · have hother : slotAt (commitWritten err a i s) j = slotAt s j := slotAt_setSlot_other s _ hj
    rw [hother]
    exact ⟨rfl, rfl, rfl, rfl⟩

theorem commitWritten_sameContent (h : CommitAt s a i) : SameContent s (commitWritten err a i s) :=
  sameContent_of_shown rfl rfl rfl rfl (slotAt_commitWritten_shown err h)

theorem finishCommit_eq (hport : inPort s = some a) (hcls : a.cls s.strap = .commit i) :
    finishCommit err s = handCommit i (finishWrite err s) := by
  obtain ⟨w, hw⟩ : ∃ w, w = finishWrite err s := ⟨_, rfl⟩
  obtain ⟨cls, hcls'⟩ : ∃ cls, cls = Access.cls := ⟨_, rfl⟩
  rw [← hcls'] at hcls
  rw [finishCommit, hport, ← hw, ← hcls']
  simp only [hcls]

/-- A commit is the write of its word, handed over. -/
theorem exec_commit (h : CommitAt s a i) : exec (.commit err) s = .next (settle s (handCommit i (commitWritten err a i s))) := by
  obtain ⟨hwrite, hlanes, -⟩ := h
  have hwritten : finishWrite err s = commitWritten err a i s := finishWrite_eq hwrite err
  obtain ⟨hpin, hport, hw, hcls⟩ := hwrite
  have hocc : occurs (.commit err) s = true :=
    inFlightIs_of (test := isCommit) hport hcls (by rw [isCommit, hw, decide_eq_true hlanes]; rfl)
  rw [exec_of_occurs (c := .commit err) rfl hpin hocc, ← hwritten, ← finishCommit_eq err (inPort_of_port hport) hcls]
  rfl

end Commit

theorem loadedSlot_iff {s : State} {i : Nat} : loadedSlot s i = true ↔ ∃ j k, s.part.reading = .table j k ∧ i < j := by
  unfold loadedSlot
  cases s.part.reading <;> simp

theorem handCommit_of_considered {i : Nat} {s : State} (h : Considered s i) :
    handCommit i s = considerCommit i (decide (s.part.state = .loading)) s := by
  obtain hs | ⟨hs, hloaded⟩ := h
  · simp only [handCommit, hs, reduceCtorEq, decide_false]
  · have hloaded' := loadedSlot_iff.2 hloaded
    simp only [handCommit, hs, hloaded', ↓reduceIte, decide_true]

theorem handCommit_of_not {i : Nat} {s : State} (h : ¬Considered s i) : handCommit i s = s := by
  unfold handCommit
  split <;> rename_i hs
  · exact absurd (.inl hs) h
  · refine if_neg fun hloaded => h (.inr ⟨hs, loadedSlot_iff.1 hloaded⟩)
  · rfl
  · rfl

/-- The code of the first check that fails (R25). -/
theorem refusalOf_of_not_passes {platforms : Nat} {staging : List Word} (h : ¬Passes platforms staging) :
    refusalOf platforms staging = some (if 1440 ≤ rawMinute staging then .badTime
      else if rawDay staging = 3 then .badDay
      else if platforms < rawPlatform staging then .badPlatform
      else .badDestination) := by
  unfold refusalOf
  split
  · rfl
  · split
    · rfl
    · split
      · rfl
      · rename_i hminute hday hplatform
        refine if_pos (by_contra fun hdestination => h ?_)
        exact ⟨Nat.lt_of_not_le hminute, hday, Nat.le_of_not_lt hplatform, hdestination⟩

/-! ## Commits that leave the record -/

/-- Settles O20: a commit not considered is only captured, a refused one also sets the last result. -/
theorem commitLeavesTheRecord : Obligations.CommitLeavesTheRecord := by
  unfold Obligations.CommitLeavesTheRecord
  intro err s a i h staging kept
  have hexec := exec_commit err h
  refine ⟨fun hnot => ?_, fun hconsidered hvalid hfails => ?_⟩
  · rw [hexec, handCommit_of_not (s := commitWritten err a i s) hnot]
    rfl
  · have hslot := slotAt_commitWritten_same err h
    have hrefused := refusalOf_of_not_passes hfails
    have hparams : (commitWritten err a i s).params.p = s.params.p := rfl
    rw [hexec, handCommit_of_considered (s := commitWritten err a i s) hconsidered, considerCommit, hslot, hparams]
    rw [if_pos hvalid, hrefused]
    have hset : ∀ code, modSlot i (fun x => { x with lastResult := code }) (commitWritten err a i s) =
        kept { slotAt s i with staging := staging, lastResult := code } := by
      intro code
      show setSlot i { slotAt (commitWritten err a i s) i with lastResult := code } (commitWritten err a i s) = _
      rw [hslot]
      exact setSlot_setSlot { s with mem := s.mem.answered (.writeDone err) } i _ _
    exact congrArg (fun t => Host.Outcome.next (settle s t)) (hset _)

/-! ## Forgetting a slot (R126) -/

/-- The cues of a slot leave; the message in flight is told by its order (R133, R136). -/
theorem removeCues_losesItsCues (i : Nat) (s : State) : LosesItsCues false i s (removeCues (ofSlot i) s) := by
  have hcues : (removeCues (ofSlot i) s).cues = _ := CueUnit.remove_eq (ofSlot i) s.cues
  have htest : ∀ m : Message, (s.cues.queue.any fun c => ofSlot i c && decide (c.order = m.cue.order)) =
      s.cues.queue.any fun c => decide (c.slot = some i ∧ c.order = m.cue.order) := by
    simp only [ofSlot, Bool.decide_and, implies_true]
  refine ⟨?_, ?_, ?_⟩
  · rw [hcues]
    simp only [ofSlot, decide_not]
  · rw [hcues]
  · rw [hcues]
    simp only [htest, Bool.false_and, Bool.or_false]
    refine congrArg (fun f => s.cues.msg.map f) (funext fun m => ?_)
    split <;> rfl

/-- Forgetting a slot whose cues may have left before. -/
theorem forget_losesItsCues {i : Nat} {s u : State} (h : u.cues = s.cues ∨ LosesItsCues false i s u) :
    LosesItsCues true i s (forget i u) := by
  have hforget : (forget i u).cues = (disown i (removeCues (ofSlot i) u)).cues := rfl
  have hmsg : (forget i u).cues.msg = (removeCues (ofSlot i) u).cues.msg.map fun m =>
      if m.cue.slot = some i then { m with gone := true } else m := rfl
  obtain ⟨hqueue, hnext, hcond⟩ := removeCues_losesItsCues i u
  have hgone : ∀ m : Message, (if m.cue.slot = some i then { m with gone := true } else m) =
      { m with gone := m.gone || decide (m.cue.slot = some i) } := by
    intro m
    split <;> rename_i hm <;> simp [hm]
  obtain hcues | ⟨hqueue', hnext', hcond'⟩ := h
  · rw [hcues] at hqueue hnext hcond
    refine ⟨hqueue, hnext, ?_⟩
    rw [hmsg, hcond, Option.map_map]
    refine congrArg (fun f => s.cues.msg.map f) (funext fun m => ?_)
    refine (hgone _).trans ?_
    simp only [Bool.false_and, Bool.or_false, Bool.true_and]
  · have hnone : ∀ m : Message, (u.cues.queue.any fun c => decide (c.slot = some i ∧ c.order = m.cue.order)) = false := by
      intro m
      rw [hqueue']
      refine List.any_eq_false.2 fun c hc => ?_
      have hslot := of_decide_eq_true (List.mem_filter.1 hc).2
      simp [hslot]
    refine ⟨?_, hnext.trans hnext', ?_⟩
    · have hfilter : (forget i u).cues.queue = u.cues.queue.filter fun c => decide (c.slot ≠ some i) := hqueue
      rw [hfilter, hqueue', List.filter_filter]
      simp only [Bool.and_self]
    · rw [hmsg, hcond, hcond', Option.map_map, Option.map_map]
      refine congrArg (fun f => s.cues.msg.map f) (funext fun m => ?_)
      refine (hgone _).trans ?_
      simp only [hnone, Bool.false_and, Bool.or_false, Bool.true_and, Bool.false_eq_true, ↓reduceIte]

theorem refersTo_eq_any (i : Nat) (n : Option Footnote) : refersTo i n = n.any fun f => decide (f.slot = i) := by
  cases n <;> rfl

/-! ## Vacating (R31) -/

/-- A slot vacated, and nothing else but what is marked, noted, or referred to it. -/
theorem vacateSlot_isVacated {i : Nat} {s : State} (hi : i < s.slots.length) (result : LastResult) (generation : Nat) :
    let t := vacateSlot i result generation s
    IsVacated result generation i (slotAt s i).staging s t ∧ t.att = s.att ∧
      OnlySlots { s with mem := { s.mem with noted := t.mem.noted } } t := by
  intro t
  obtain ⟨marks, seq, ht⟩ := vacateSlot_frame i result generation s
  obtain ⟨msg, noted, hforget⟩ := forget_frame i (unplace i (modSlot i (Slot.vacate result generation) s))
  obtain ⟨hqueue, hnext, hmsg⟩ := forget_losesItsCues (i := i) (s := s)
    (u := unplace i (modSlot i (Slot.vacate result generation) s)) (.inl rfl)
  have hslot : slotAt (unplace i (modSlot i (Slot.vacate result generation) s)) i = Slot.vacate result generation (slotAt s i) :=
    slotAt_setSlot_same s _ hi
  have hcues : t.cues = (forget i (unplace i (modSlot i (Slot.vacate result generation) s))).cues := by simp only [t, ht]
  refine ⟨⟨?_, ?_, ?_, hcues ▸ hqueue, hcues ▸ hnext, hcues ▸ hmsg⟩, ?_, ?_⟩
  · simp only [t, ht, hforget]
    rw [hslot]
    exact List.set_set ..
  · simp only [t, ht, hforget]
    rfl
  · simp only [t, ht, hforget, refersTo_eq_any]
    rfl
  · simp only [t, ht, hforget]
    rfl
  · simp only [t, OnlySlots, ht, hforget]
    rfl

end Sys2Proof.Machine
end

section
/-! PROOFS. A commit that vacates its slot, and the marks of a commit. -/

namespace Sys2Proof.Machine

set_option Elab.async false

/-! ## Vacating by a commit (R31) -/

/-- What a commit makes of the slot is said of the state before its write as of the one after it. -/
theorem IsVacated.of_written {result : LastResult} {generation i : Nat} {staging : List Word} {err : Bool} {a : Access} {s t : State}
    (h : IsVacated result generation i staging (commitWritten err a i s) t) : IsVacated result generation i staging s t := by
  obtain ⟨hslots, hrest⟩ := h
  exact ⟨hslots.trans (List.set_set ..), hrest⟩

theorem IsVacated.settle {result : LastResult} {generation i : Nat} {staging : List Word} {s t : State}
    (h : IsVacated result generation i staging s t) : IsVacated result generation i staging s (Machine.settle s t) := h

theorem considerCommit_refuses {i : Nat} {loading : Bool} {code : LastResult} {s : State}
    (h : commitValid (stagedWord (slotAt s i).staging 5) = true) (hcode : refusalOf s.params.p (slotAt s i).staging = some code) :
    considerCommit i loading s = modSlot i (fun x => { x with lastResult := code }) s := by
  rw [considerCommit, if_pos h, hcode]

theorem considerCommit_takes {i : Nat} {loading : Bool} {s : State} (h : commitValid (stagedWord (slotAt s i).staging 5) = true)
    (hcode : refusalOf s.params.p (slotAt s i).staging = none) :
    considerCommit i loading s = takeRecord i (commitQuiet (stagedWord (slotAt s i).staging 5) || loading) s := by
  rw [considerCommit, if_pos h, hcode]

theorem considerCommit_vacates {i : Nat} {loading : Bool} {s : State} (h : commitValid (stagedWord (slotAt s i).staging 5) = false) :
    considerCommit i loading s = vacateSlot i .taken (commitGeneration (stagedWord (slotAt s i).staging 5)) s :=
  if_neg (by rw [h]; exact Bool.false_ne_true)

/-- Settles O23: the commit is considered, and its valid bit is 0. -/
theorem commitVacatesTheSlot : Obligations.CommitVacatesTheSlot := by
  unfold Obligations.CommitVacatesTheSlot
  intro err s a i h hconsidered hvalid
  have hslot := slotAt_commitWritten_same err h
  have hi : i < (commitWritten err a i s).slots.length := by
    obtain ⟨⟨-, -, -, hcls⟩, -, hlength⟩ := h
    have hlt := lt_of_addrClass_commit hcls
    have hlength' : (commitWritten err a i s).slots.length = 96 := (List.length_set ..).trans hlength
    omega
  have hhand : handCommit i (commitWritten err a i s) =
      vacateSlot i .taken (field (stagedWord (stagedCommit s a i) 5) 8 8) (commitWritten err a i s) := by
    have hstaging : (slotAt (commitWritten err a i s) i).staging = stagedCommit s a i := by rw [hslot]
    rw [handCommit_of_considered (s := commitWritten err a i s) hconsidered, considerCommit_vacates (by rw [hstaging]; exact hvalid),
      hstaging]
    rfl
  obtain ⟨hvacated, hatt, honly⟩ := vacateSlot_isVacated hi .taken (field (stagedWord (stagedCommit s a i) 5) 8 8)
  rw [hslot] at hvacated
  have hexec := exec_commit err h
  rw [hhand] at hexec
  refine ⟨_, hexec, hvacated.of_written, hatt, ?_⟩
  rw [settle_frame, OnlySlots]
  rw [honly]
  rfl

/-! ## The marks of a commit (R89 to R91, R97, R101) -/

theorem stagedRecord_eq (staging : List Word) : stagedRecord staging = recordOf staging := by
  have hday : ∀ n : Nat, (if n = 1 then DaySelect.next else if n = 2 then .previous else .current) = dayOf n := by
    intro n
    rcases n with _ | _ | _ | n
    · rfl
    · rfl
    · rfl
    · rw [if_neg (by omega), if_neg (by omega)]
      rfl
  have hdelay : ∀ n : Nat, (if 719 < n then 719 else n) = min n 719 := by
    intro n
    split <;> omega
  simp only [stagedRecord, recordOf, hday, hdelay]
  rfl

theorem takenUrgent_eq (old : Option Record) (r : Record) : takenUrgent old r = UrgentChange old r := by
  cases old with
  | none => rfl
  | some o => simp [takenUrgent, UrgentChange, Bool.decide_and, Bool.decide_or]

theorem sameContent_settle {s u v : State} (h : MarksOnly u v) : SameContent u (settle s v) := by
  obtain ⟨marks, seq, rfl⟩ := h
  exact sameContent_of_eq rfl rfl rfl rfl rfl

/-- An event that changes no rendered content and no mark. -/
theorem marksJoin_of_sameContent {urgent : Bool} {i : Nat} {s t : State} (h : SameContent s t) (hdisplay : t.display = s.display) :
    MarksJoin (askedMarks urgent i s t) i s t := by
  rw [askedMarks_sameContent h]
  have hsame : s = withAsked [] i s := foldl_joinMark_eq (asked := []) fun e _ hasks => by simp [asksUrgent] at hasks
  exact marksJoin_of_display (by rw [← hsame, hdisplay]; exact ⟨rfl, rfl⟩)

theorem SameContent.trans {s t u : State} (h : SameContent s t) (h' : SameContent t u) : SameContent s u :=
  ⟨fun row => (h'.1 row).trans (h.1 row), fun p => (h'.2 p).trans (h.2 p)⟩

theorem modSlot_sameContent {f : Slot → Slot} (hf : ∀ x : Slot, x.SameShown (f x)) (i : Nat) (s : State) :
    SameContent s (modSlot i f s) := by
  refine sameContent_of_shown rfl rfl rfl rfl fun j => ?_
  by_cases hj : j = i
  · by_cases hi : i < s.slots.length
    · rw [hj, modSlot, slotAt_setSlot_same s _ hi]
      exact hf _
    · have hsame : modSlot i f s = s := by
        rw [modSlot, setSlot, List.set_eq_of_length_le (by omega)]
      rw [hsame]
      exact ⟨rfl, rfl, rfl, rfl⟩
  · rw [modSlot, slotAt_setSlot_other s _ hj]
    exact ⟨rfl, rfl, rfl, rfl⟩

section Marks

variable {s : State} {i : Nat}

theorem applyRecord_frame_params (quiet : Bool) : (applyRecord i quiet s).params = s.params ∧ (applyRecord i quiet s).display = s.display := by
  obtain ⟨_, _, _, _, _, _, _, _, _, h⟩ := applyRecord_reports i quiet s
  rw [h, place_frame]
  exact ⟨rfl, rfl⟩

theorem vacate_frame_params (result : LastResult) (generation : Nat) :
    (forget i (unplace i (modSlot i (Slot.vacate result generation) s))).params = s.params ∧
      (forget i (unplace i (modSlot i (Slot.vacate result generation) s))).display = s.display := by
  obtain ⟨_, _, h⟩ := forget_frame i (unplace i (modSlot i (Slot.vacate result generation) s))
  rw [h]
  exact ⟨rfl, rfl⟩

end Marks

/-- The marks of an event that compares contents in a state that shows what an earlier one did. -/
theorem marksJoin_settle {cause : Option Cause} {urgent : Bool} {i : Nat} {f : State → State} {s₀ s : State}
    (hcause : Asks cause urgent i) (hp : ParamsSound s) (hd : DisplaySound s)
    (hf : (f s).params = s.params ∧ (f s).display = s.display) (hparams₀ : s₀.params = s.params) (hdisplay₀ : s₀.display = s.display)
    (hsame₀ : SameContent s s₀) :
    MarksJoin (askedMarks urgent i s₀ (settle s₀ (compared cause f s))) i s₀ (settle s₀ (compared cause f s)) :=
  marksJoin_of_compared hcause hp hd hf.1 hf.2 hparams₀ hdisplay₀ hsame₀ (sameContent_settle (compared_frame cause f s)) ⟨rfl, rfl⟩

/-- Settles O24: a commit compares contents where it takes or vacates, and else changes none. -/
theorem commitMarksWhatItChanged : Obligations.CommitMarksWhatItChanged := by
  unfold Obligations.CommitMarksWhatItChanged
  intro err s a i h hp hd staging urgent
  have hslot := slotAt_commitWritten_same err h
  have hsame := commitWritten_sameContent err h
  have hp' : ParamsSound (commitWritten err a i s) := hp
  have hd' : DisplaySound (commitWritten err a i s) := hd
  have hstaging : (slotAt (commitWritten err a i s) i).staging = staging := by rw [hslot]
  refine ⟨_, exec_commit err h, ?_⟩
  by_cases hconsidered : Considered s i
  · rw [handCommit_of_considered (s := commitWritten err a i s) hconsidered]
    cases hvalid : commitValid (stagedWord staging 5) with
    | true =>
      have hflag : flag (stagedWord staging 5) 0 = true := hvalid
      have hurgent : urgent = takenUrgent (slotAt (commitWritten err a i s) i).applied
          (recordOf (slotAt (commitWritten err a i s) i).staging) := by
        rw [hslot, takenUrgent_eq, ← stagedRecord_eq]
        simp only [urgent, hflag, Bool.not_true, Bool.false_or]
        rfl
      cases hcode : refusalOf s.params.p staging with
      | some code =>
        rw [considerCommit_refuses (s := commitWritten err a i s) (by rw [hstaging]; exact hvalid) (by rw [hstaging]; exact hcode)]
        refine marksJoin_of_sameContent ((hsame.trans ?_).trans (sameContent_settle (.refl _))) rfl
        exact modSlot_sameContent (f := fun x => { x with lastResult := code }) (fun x => ⟨rfl, rfl, rfl, rfl⟩) i _
      | none =>
        rw [considerCommit_takes (s := commitWritten err a i s) (by rw [hstaging]; exact hvalid) (by rw [hstaging]; exact hcode),
          takeRecord, ← hurgent]
        exact marksJoin_settle (asks_some i urgent) hp' hd' (applyRecord_frame_params _) rfl rfl hsame.symm
    | false =>
      have hflag : flag (stagedWord staging 5) 0 = false := hvalid
      have hurgent : urgent = true := by simp only [urgent, hflag, Bool.not_false, Bool.true_or]
      rw [considerCommit_vacates (s := commitWritten err a i s) (by rw [hstaging]; exact hvalid), hurgent, vacateSlot]
      exact marksJoin_settle (asks_some i true) hp' hd' (vacate_frame_params _ _) rfl rfl hsame.symm
  · rw [handCommit_of_not (s := commitWritten err a i s) hconsidered]
    exact marksJoin_of_sameContent (hsame.trans (sameContent_settle (.refl _))) rfl

end Sys2Proof.Machine
end

section
/-! PROOFS. What a frame is rendered from, by the role of its drop. -/

namespace Sys2Proof.Machine

set_option Elab.async false

/-! ## The items of a slot (R68, R85 to R87) -/

theorem showsExpected_eq (q : Params) (x : Slot) (r : Record) :
    showsExpected q x r = (decide (x.state ≠ .cancelled ∧ 0 < r.delay) && decide (q.threshold ≤ r.delay)) := by
  rw [showsExpected, Bool.decide_and]

theorem addedDelay_eq (q : Params) (x : Slot) (r : Record) :
    addedDelay q x r = if x.state = .cancelled ∨ decide (q.threshold ≤ r.delay) = true then 0 else r.delay := by
  simp only [addedDelay, decide_eq_true_eq]

theorem shownCountdown_eq (q : Params) (c : Clock) (x : Slot) (ke : Int) :
    shownCountdown q c x ke =
      if c.state ≠ .unset ∧ (x.state = .scheduled ∨ x.state = .boarding) ∧ 1 ≤ ke - (c.t / 60 : Nat) ∧
        ke - (c.t / 60 : Nat) ≤ q.window then (ke - (c.t / 60 : Nat)).toNat else 0 := by
  simp only [shownCountdown, Clock.isSet, decide_eq_true_eq, countdown, Clock.minute]

theorem remarkOf_eq (q : Params) (x : Slot) (r : Record) :
    remarkOf q x r =
      if x.state = .cancelled then .cancelled
      else if x.state = .departing then .departing
      else if x.highlight ≠ none then .changed
      else if x.state = .boarding then .boarding
      else if decide (q.threshold ≤ r.delay) = true then .delayed r.delay
      else .none := by
  simp only [remarkOf, Option.isSome_iff_ne_none, decide_eq_true_eq]

theorem slotContent_some {s : State} {i : Nat} {r : Record} {k : Keys} (hr : (slotAt s i).applied = some r)
    (hk : (slotAt s i).keys = some k) : slotContent s i = some (contentOf s.params s.clock (slotAt s i) r k.ke) := by
  rw [slotContent, hr, hk]

/-! ## Frames by role (R79, R80, R83, R84, R102, R106) -/

/-- A frame of a mark with the kind, the items and the slot given. -/
def markFrame (m : Mark) (forStep : Bool) (r : Rendered) : Frame :=
  { drop := m.drop, kind := r.kind, shown := r.shown, urgent := m.urgent, cause := m.cause, forStep := forStep
    discard := false, bytes := frameBytes m.drop r.kind r.items, window := false }

theorem frameOf_eq (s : State) (m : Mark) (forStep : Bool) : frameOf s m forStep = markFrame m forStep (render s m.drop) := rfl

theorem rowFrame_some {s : State} {i : Nat} {c : Content} (h : slotContent s i = some c) :
    rowFrame s (some i) = { kind := .row, items := rowItems c, shown := some (i, c.platform) } := by
  rw [rowFrame, h]

theorem render_wall {s : State} {drop row : Nat} (h : (dropAt s drop).role = .wall row) :
    render s drop = rowFrame s (wallSlot s drop row) := by
  rw [render, h]

/-- A slot past the table is VACANT. -/
theorem active_lt {s : State} (hlength : s.slots.length = 96) {i : Nat} (h : (slotAt s i).state.active = true) : i < 96 := by
  by_contra hle
  rw [slotAt_of_le (by omega)] at h
  exact absurd h (by decide)

/-- In HOLD the shown slot is looked for in the row map, which holds the active slots alone (R74). -/
theorem wallSlot_hold {s : State} {drop row : Nat} (hmode : s.display.mode = .hold) (hrows : RowMapSound s) :
    wallSlot s drop row = ((dropAt s drop).shown.map (·.1)).filter fun i => s.rowMap.contains i := by
  obtain ⟨hlength, -, -, hmem, -⟩ := hrows
  have hsame : ∀ i, (slotAt s i).state.active = s.rowMap.contains i := fun i => by
    rw [Bool.eq_iff_iff, List.contains_iff_mem, hmem]
    exact ⟨fun h => ⟨active_lt hlength h, h⟩, fun h => h.2⟩
  rw [wallSlot, if_pos hmode, funext hsame]

theorem platformOf_eq_iff {s : State} {i p : Nat} (hp : 1 ≤ p) :
    platformOf s i = p ↔ (slotAt s i).applied.any (fun r => decide (r.platform = p)) = true := by
  rw [platformOf]
  cases (slotAt s i).applied with
  | none => exact ⟨fun h => absurd h (by simp only [Option.map_none, Option.getD_none]; omega), fun h => nomatch h⟩
  | some r => simp only [Option.map_some, Option.getD_some, Option.any_some, decide_eq_true_eq]

theorem mainSlot_eq {s : State} {p : Nat} (hp : 1 ≤ p) :
    mainSlot s p = s.rowMap.find? fun i => (slotAt s i).applied.any fun r => decide (r.platform = p) := by
  rw [mainSlot]
  congr
  funext i
  rw [Bool.eq_iff_iff, decide_eq_true_eq, platformOf_eq_iff hp]

/-- A board frame does not carry the via code, so that the main field is without it does not show (R88). -/
theorem boardItems_main (s : State) (i : Option Nat) (foot : Option (Nat × Nat × Nat)) :
    boardItems ((i.map fun i => (i, (slotContent s i).map fun c => { c with via := 0 })).bind (·.2)) foot =
      boardItems (i.bind (slotContent s)) foot := by
  cases i with
  | none => rfl
  | some i =>
    simp only [Option.map_some, Option.bind_some]
    cases slotContent s i with
    | none => rfl
    | some c => rfl

theorem render_board {s : State} {drop p : Nat} (hp : 1 ≤ p) (h : (dropAt s drop).role = .board p) :
    render s drop = {
      kind := .board
      items := boardItems ((s.rowMap.find? fun i => (slotAt s i).applied.any fun r => decide (r.platform = p)).bind (slotContent s))
        (footnoteShown s p)
      shown := none } := by
  rw [render, h]
  simp only [mainField, boardItems_main, mainSlot_eq hp]

/-- Settles O44, a role at a time. -/
theorem framesShowTheirRole : Obligations.FramesShowTheirRole := by
  unfold Obligations.FramesShowTheirRole
  intro s
  refine ⟨?_, ?_⟩
  · intro i r k hr hk x late expected minute c
    rw [slotContent_some hr hk, contentOf, shownMinute, showsExpected_eq, addedDelay_eq, shownCountdown_eq, remarkOf_eq]
    rfl
  · intro m forStep frame blank ofSlot y
    have hslot : ∀ slot, ofSlot slot (markFrame m forStep (rowFrame s slot)) := by
      intro slot
      cases slot with
      | none => rfl
      | some i =>
        intro c hc
        rw [rowFrame_some hc]
        rfl
    have hwall : ∀ row, (dropAt s m.drop).role = .wall row → ofSlot (wallSlot s m.drop row) y := fun row hrole => by
      have hrow := hslot (wallSlot s m.drop row)
      rw [← render_wall hrole] at hrow
      exact hrow
    refine ⟨fun row hrole => ⟨fun hmode => ?_, fun hmode hrows => ?_⟩, fun p hp hrole => ?_, fun hrole => ?_, fun hrole => ?_⟩
    · have hrow := hwall row hrole
      rw [wallSlot, if_neg hmode] at hrow
      exact hrow
    · rw [← wallSlot_hold hmode hrows]
      exact hwall row hrole
    · exact congrArg (markFrame m forStep) (render_board hp hrole)
    · have hclock : render s m.drop = { kind := .clock, items := clockItems s.clock, shown := none } := by rw [render, hrole]
      refine (congrArg (markFrame m forStep) hclock).trans ?_
      simp only [clockItems]
      cases s.clock.state <;> rfl
    · change markFrame m forStep (render s m.drop) = _
      rw [render, hrole]
      cases s.notices.shown with
      | none => rfl
      | some n =>
        simp only [tickerItems]
        cases (entryAt s n).cls <;> rfl

end Sys2Proof.Machine
end

section
/-! PROOFS. The end of an exchange on the display link: which replies are valid, the outcome applied to the drop, and the
STEP FRAME that completes with it or is served after it. -/

namespace Sys2Proof.Machine

set_option Elab.async false

/-! ## Replies (R107, section 11.6) -/

/-- The four bytes of a reply: address, code, and their sum low byte first. -/
def replyBytes (drop code : Nat) : List Byte :=
  [BitVec.ofNat 8 drop, BitVec.ofNat 8 code, BitVec.ofNat 8 (drop + code), BitVec.ofNat 8 ((drop + code) / 256)]

theorem sumCheck_reply {drop code : Nat} (hdrop : drop < 128) (hcode : code < 256) :
    sumCheck [byteOf drop, byteOf code] = drop + code := by
  simp only [sumCheck, byteOf, List.foldr_cons, List.foldr_nil, BitVec.toNat_ofNat]
  omega

theorem reply_append {drop code : Nat} (hdrop : drop < 128) (hcode : code < 256) (more : List Byte) :
    replyBytes drop code ++ more =
      byteOf drop :: byteOf code :: (twoBytes (sumCheck [byteOf drop, byteOf code]) ++ more) := by
  rw [sumCheck_reply hdrop hcode]
  rfl

theorem replyOutcome_ack {drop : Nat} (hdrop : drop < 128) (more : List Byte) :
    replyOutcome drop (replyBytes drop 0xA1 ++ more) = some .ack :=
  replyOutcome_eq_some_iff.2 ⟨_, more, reply_append hdrop (by decide) more, .inl ⟨rfl, rfl⟩⟩

theorem replyOutcome_nak {drop : Nat} (hdrop : drop < 128) (more : List Byte) :
    replyOutcome drop (replyBytes drop 0xA2 ++ more) = some .nak :=
  replyOutcome_eq_some_iff.2 ⟨_, more, reply_append hdrop (by decide) more, .inr ⟨rfl, rfl⟩⟩

/-- Any other run of bytes has no outcome. -/
theorem replyOutcome_none {drop : Nat} (hdrop : drop < 128) {bytes : List Byte} (hack : bytes.take 4 ≠ replyBytes drop 0xA1)
    (hnak : bytes.take 4 ≠ replyBytes drop 0xA2) : replyOutcome drop bytes = none := by
  refine Option.eq_none_iff_forall_ne_some.2 fun o ho => ?_
  obtain ⟨code, more, rfl, ⟨rfl, -⟩ | ⟨rfl, -⟩⟩ := replyOutcome_eq_some_iff.1 ho
  · exact hack (congrArg (List.take 4) (reply_append hdrop (by decide : 0xA1 < 256) more).symm)
  · exact hnak (congrArg (List.take 4) (reply_append hdrop (by decide : 0xA2 < 256) more).symm)

/-! ## The events that end an exchange -/

/-- The reply, or the close of the window, that gives an exchange with this drop this outcome (R107). -/
inductive EndsExchange (drop : Nat) : Instr → Exchange → Prop
  | ack (more : List Byte) : EndsExchange drop (.reply (replyBytes drop 0xA1 ++ more)) .ack
  | nak (more : List Byte) : EndsExchange drop (.reply (replyBytes drop 0xA2 ++ more)) .nak
  | close : EndsExchange drop .replyWindowClose .noReply

/-- A frame to a drop is in flight with its reply window open. -/
structure Awaiting (f : Frame) (s : State) : Prop where
  pin : s.resetPin = false
  frame : s.display.frame = some f
  window : f.window = true
  drop : f.drop < 128

theorem Awaiting.replyTo {f : Frame} {s : State} (h : Awaiting f s) (bytes : List Byte) :
    replyTo s bytes = replyOutcome f.drop bytes := by
  rw [Machine.replyTo, h.frame]
  exact if_pos h.window

theorem Awaiting.exec_reply {f : Frame} {s : State} (h : Awaiting f s) {bytes : List Byte} {o : Exchange}
    (ho : replyOutcome f.drop bytes = some o) : exec (.reply bytes) s = .next (settle s (finishExchange o s)) := by
  have hreply : Machine.replyTo s bytes = some o := (h.replyTo bytes).trans ho
  rw [exec_of_occurs (c := .reply bytes) rfl h.pin (by rw [occurs, hreply]; rfl)]
  show Host.Outcome.next (settle s (receiveReply bytes s)) = _
  rw [receiveReply, hreply]

theorem Awaiting.exec_eq {f : Frame} {s : State} (h : Awaiting f s) {c : Instr} {o : Exchange} (hc : EndsExchange f.drop c o) :
    exec c s = .next (settle s (finishExchange o s)) := by
  cases hc with
  | ack more => exact h.exec_reply (replyOutcome_ack h.drop more)
  | nak more => exact h.exec_reply (replyOutcome_nak h.drop more)
  | close =>
    refine exec_of_occurs (c := .replyWindowClose) rfl h.pin ?_
    show windowIsOpen s = true
    rw [windowIsOpen, h.frame]
    exact h.window

/-- DROP_OFFLINE is the end of an exchange whose failure is the drop's third (R110, log entry 8). -/
theorem Awaiting.exec_dropOffline {f : Frame} {s : State} (h : Awaiting f s) (hdiscard : f.discard = false) (hkind : f.kind ≠ .probe)
    (hthird : 2 ≤ (dropAt s f.drop).failures) (cause : FailCause) :
    exec (.dropOffline cause) s = .next (settle s (finishExchange (failOutcome cause) s)) := by
  refine exec_of_occurs (c := .dropOffline cause) rfl h.pin ?_
  show thirdFailure s = true
  rw [thirdFailure, h.frame]
  simp only [h.window, hdiscard, decide_eq_true hkind, isThird, decide_eq_true hthird, Bool.not_false, Bool.and_self]

/-! ## The outcome applied to the drop (R96, R108 to R110, R113) -/

/-- The link idle again. -/
def idled (s : State) : State := { s with display := { s.display with frame := none } }

theorem finishExchange_plain {f : Frame} {s : State} {o : Exchange} (hframe : s.display.frame = some f) (hstep : f.forStep = false)
    (hphase : s.display.step ≠ .waiting) : finishExchange o s = applyOutcome f o (idled s) := by
  have hend : endExchange f o s = applyOutcome f o (idled s) := if_neg (by rw [hstep]; exact Bool.false_ne_true)
  have hkept : (applyOutcome f o (idled s)).display.step = s.display.step :=
    ((applyOutcome_only f o (idled s)).same .stepPhase).trans rfl
  rw [finishExchange, hframe]
  simp only [hend]
  exact if_neg (by rw [hkept]; exact hphase)

theorem applyOutcome_discard {f : Frame} {o : Exchange} {s : State} (h : f.discard = true) : applyOutcome f o s = s := if_pos h

theorem applyOutcome_probe {f : Frame} {o : Exchange} {s : State} (hdiscard : f.discard = false) (hkind : f.kind = .probe) :
    applyOutcome f o s = if o = .ack then bringOnline f.drop s else s :=
  (if_neg (by rw [hdiscard]; exact Bool.false_ne_true)).trans (if_pos hkind)

theorem applyOutcome_ack {f : Frame} {s : State} (hdiscard : f.discard = false) (hkind : f.kind ≠ .probe) :
    applyOutcome f .ack s = ackDrop f s :=
  (if_neg (by rw [hdiscard]; exact Bool.false_ne_true)).trans ((if_neg hkind).trans (if_pos rfl))

theorem ackDrop_wall {f : Frame} {s : State} {row : Nat} (h : (dropAt s f.drop).role = .wall row) :
    ackDrop f s = modDrop f.drop (fun d => { d with failures := 0, shown := f.shown }) s := by
  have hshown : (match (dropAt s f.drop).role with
      | .wall _ => f.shown
      | _ => none) = f.shown := by rw [h]
  exact congrArg (fun x => modDrop f.drop (fun d => { d with failures := 0, shown := x }) s) hshown

theorem ackDrop_other {f : Frame} {s : State} (h : ∀ row, (dropAt s f.drop).role ≠ .wall row) :
    ackDrop f s = modDrop f.drop (fun d => { d with failures := 0, shown := none }) s := by
  have hshown : (match (dropAt s f.drop).role with
      | .wall _ => f.shown
      | _ => none) = none := by
    split
    · exact absurd ‹_› (h _)
    · rfl
  exact congrArg (fun x => modDrop f.drop (fun d => { d with failures := 0, shown := x }) s) hshown

theorem applyOutcome_fail {f : Frame} {o : Exchange} {s : State} (hdiscard : f.discard = false) (hkind : f.kind ≠ .probe)
    (ho : o ≠ .ack) : applyOutcome f o s = if 2 ≤ (dropAt s f.drop).failures then takeOffline f.drop s else countFailure f s := by
  refine (if_neg (by rw [hdiscard]; exact Bool.false_ne_true)).trans ((if_neg hkind).trans ((if_neg ho).trans ?_))
  simp only [failDrop, isThird, decide_eq_true_eq]

/-! ## STEP FRAME in an exchange (R105) -/

/-- The state with STEP FRAME at this point of its execution. -/
def stepping (k : StepPhase) (s : State) : State := { s with display := { s.display with step := k } }

theorem joinMark_stepping (m : Mark) (k : StepPhase) (s : State) : joinMark m (stepping k s) = stepping k (joinMark m s) := by
  by_cases hout : (dropAt s m.drop).online = false ∨ (dropAt s m.drop).role = .none
  · exact (if_pos hout).trans (congrArg (stepping k) (if_pos hout : joinMark m s = _)).symm
  · by_cases hmarked : (s.display.marks.any fun e => decide (e.drop = m.drop)) = true
    · have hjoin : joinMark m s = _ := (if_neg hout).trans (if_pos hmarked)
      exact ((if_neg hout).trans (if_pos hmarked)).trans (congrArg (stepping k) hjoin).symm
    · have hjoin : joinMark m s = _ := (if_neg hout).trans (if_neg hmarked)
      exact ((if_neg hout).trans (if_neg hmarked)).trans (congrArg (stepping k) hjoin).symm

/-- The outcome applied to a drop does not look at whether the frame is STEP FRAME's. -/
theorem applyOutcome_forStep (f : Frame) (b : Bool) (o : Exchange) (s : State) :
    applyOutcome { f with forStep := b } o s = applyOutcome f o s := rfl

theorem applyOutcome_stepping (f : Frame) (o : Exchange) (k : StepPhase) (s : State) :
    applyOutcome f o (stepping k s) = stepping k (applyOutcome f o s) := by
  cases hdiscard : f.discard with
  | true => rw [applyOutcome_discard hdiscard, applyOutcome_discard hdiscard]
  | false =>
    by_cases hkind : f.kind = .probe
    · rw [applyOutcome_probe hdiscard hkind, applyOutcome_probe hdiscard hkind]
      split
      · show _ = stepping k (joinMark _ _)
        rw [← joinMark_stepping]
        rfl
      · rfl
    · by_cases ho : o = .ack
      · rw [ho, applyOutcome_ack hdiscard hkind, applyOutcome_ack hdiscard hkind]
        rfl
      · rw [applyOutcome_fail hdiscard hkind ho, applyOutcome_fail hdiscard hkind ho]
        by_cases hthird : 2 ≤ (dropAt s f.drop).failures
        · rw [if_pos hthird]
          exact if_pos hthird
        · rw [if_neg hthird]
          refine (if_neg hthird).trans ?_
          show _ = stepping k (joinMark _ _)
          rw [← joinMark_stepping]
          rfl

theorem applyOutcome_cmd (f : Frame) (o : Exchange) (s : State) : (applyOutcome f o s).cmd = s.cmd := by
  have h := applyOutcome_only f o s
  show CommandArea.mk _ _ _ _ _ = CommandArea.mk _ _ _ _ _
  congr 1
  · exact h.same .staging
  · exact h.same .exec
  · exact h.same .response
  · exact h.same .count
  · exact h.same .config

/-- The exchange of a STEP FRAME ends with the command's completion. -/
theorem finishExchange_forStep {f : Frame} {s : State} (hframe : s.display.frame = some f) (hstep : f.forStep = true) (o : Exchange) :
    finishExchange o s =
      completeDone [resultOf f.drop,
          resultOf (stepOutcome o (decide (o ≠ .ack) && !f.discard && decide (2 ≤ (dropAt s f.drop).failures)))]
        (stepping .none (applyOutcome f o (idled s))) := by
  have hend : endExchange f o s = _ := if_pos hstep
  rw [finishExchange, hframe]
  simp only [hend]
  refine if_neg ?_
  rw [completeDone, (complete_only _ _ _ _).same .stepPhase]
  exact nofun

/-- A STEP FRAME that waits for the link is served at the end of the exchange, after the summary word is noted. -/
theorem finishExchange_waiting {f : Frame} {s : State} (hframe : s.display.frame = some f) (hstep : f.forStep = false)
    (hphase : s.display.step = .waiting) (o : Exchange) :
    ∃ b, finishExchange o s = serveStep (noteIf b summaryOffset (applyOutcome f o (idled s))) := by
  have hend : endExchange f o s = applyOutcome f o (idled s) := if_neg (by rw [hstep]; exact Bool.false_ne_true)
  have hkept : (applyOutcome f o (idled s)).display.step = s.display.step :=
    ((applyOutcome_only f o (idled s)).same .stepPhase).trans rfl
  rw [finishExchange, hframe]
  simp only [hend]
  exact ⟨_, if_pos (hkept.trans hphase)⟩

/-- The state with a STEP FRAME completed with this drop and outcome. -/
def stepCompleted (words : List Word) (drop outcome : Word) (t : State) : State :=
  { t with
    display := { t.display with step := .none }
    cmd := { t.cmd with
      exec := none, count := t.cmd.count + 1, response := responseHead words .done .none :: [drop, outcome, 0, 0, 0, 0] }
    att := t.att.pend .commandDone }

/-- The completion changes the same whether it comes before the end of the event or after it, but for what the end of an event
marks and times. -/
theorem upToMarks_completed {s s' v v' : State} {words : List Word} {k : StepPhase} (hnoted : s'.mem.noted = s.mem.noted)
    (hwords : v.cmd.exec = some words) (hv : v' = { v with mem := { v.mem with noted := v'.mem.noted } }) (drop outcome : Word) :
    UpToMarks (stepCompleted words drop outcome (settle s' (stepping k v)))
      (settle s (completeDone [drop, outcome] (stepping .none v'))) := by
  have hcomplete : completeDone [drop, outcome] (stepping .none v') =
      { stepCompleted words drop outcome v with mem := v'.mem } := by
    rw [hv]
    exact complete_some .done .none [drop, outcome] _ words hwords
  rw [hcomplete, hv, UpToMarks, settle_eq, settle_eq, hnoted]
  rfl

/-- So does the frame of a waiting STEP FRAME. -/
theorem upToMarks_sent {s s' v v' : State} {k : StepPhase} (hnoted : s'.mem.noted = s.mem.noted)
    (hv : v' = { v with mem := { v.mem with noted := v'.mem.noted } }) (m : Mark) :
    UpToMarks (sendMark m true (stepping .sending (settle s' (stepping k v)))) (settle s (sendMark m true (stepping .sending v'))) := by
  rw [hv, UpToMarks, settle_eq, settle_eq, hnoted]
  rfl

theorem resultOf_nak (offline : Bool) : resultOf (stepOutcome .nak offline) = if offline = true then 4 else 2 := by
  cases offline <;> rfl

theorem resultOf_noReply (offline : Bool) : resultOf (stepOutcome .noReply offline) = if offline = true then 5 else 3 := by
  cases offline <;> rfl

/-- Settles O45: the valid replies, the outcome applied by frame and drop, and STEP FRAME. -/
theorem exchangeEndsByItsOutcome : Obligations.ExchangeEndsByItsOutcome := by
  unfold Obligations.ExchangeEndsByItsOutcome
  refine ⟨fun s bytes hpin hclosed => ?_, fun s f hpin hframe hwindow hdrop hlength => ?_⟩
  · constructor
    · refine exec_of_not_occurs (c := .reply bytes) rfl hpin ?_
      show (replyTo s bytes).isSome = false
      cases hframe : s.display.frame with
      | none => rw [replyTo, hframe]; rfl
      | some f => rw [replyTo, hframe]; simp only [hclosed f hframe]; rfl
    · refine exec_of_not_occurs (c := .replyWindowClose) rfl hpin ?_
      show windowIsOpen s = false
      cases hframe : s.display.frame with
      | none => rw [windowIsOpen, hframe]; rfl
      | some f => rw [windowIsOpen, hframe]; exact hclosed f hframe
  · intro reply d entry fails completes
    have hwait : Awaiting f s := ⟨hpin, hframe, hwindow, hdrop⟩
    have hends : ∀ c ∈ fails, ∃ o, o ≠ .ack ∧ EndsExchange f.drop c o := by
      intro c hc
      obtain rfl | rfl := List.mem_pair.1 hc
      · exact ⟨.nak, nofun, .nak []⟩
      · exact ⟨.noReply, nofun, .close⟩
    have hack : EndsExchange f.drop (.reply (reply 0xA1)) .ack := .ack []
    have hany : ∀ c ∈ Instr.reply (reply 0xA1) :: fails, ∃ o, EndsExchange f.drop c o := by
      intro c hc
      obtain rfl | hc := List.mem_cons.1 hc
      · exact ⟨_, hack⟩
      · obtain ⟨o, -, hc⟩ := hends c hc
        exact ⟨o, hc⟩
    refine ⟨fun bytes h1 h2 => ?_, fun code hcode more => ?_, fun hdiscard hkind hthird => ⟨?_, ?_⟩, fun hstep hphase => ?_,
      fun words hwords => ?_⟩
    · refine exec_of_not_occurs (c := .reply bytes) rfl hpin ?_
      show (replyTo s bytes).isSome = false
      rw [hwait.replyTo, replyOutcome_none hdrop h1 h2]
      rfl
    · obtain rfl | rfl := List.mem_pair.1 hcode
      · exact (hwait.exec_eq (.ack more)).trans (hwait.exec_eq (.ack [])).symm
      · exact (hwait.exec_eq (.nak more)).trans (hwait.exec_eq (.nak [])).symm
    · exact (hwait.exec_dropOffline hdiscard hkind hthird .nak).trans (hwait.exec_eq (.nak [])).symm
    · exact (hwait.exec_dropOffline hdiscard hkind hthird .noReply).trans (hwait.exec_eq .close).symm
    · have hexec : ∀ {c o}, EndsExchange f.drop c o → exec c s = .next (settle s (applyOutcome f o (idled s))) := fun hc => by
        rw [hwait.exec_eq hc, finishExchange_plain hframe hstep (by rw [hphase]; exact nofun)]
      refine ⟨fun hdiscard c hc => ?_, fun hdiscard hkind => ⟨?_, fun c hc => ?_⟩, fun hdiscard hkind => ⟨fun row hrole => ?_,
        fun hrole => ?_, fun hfew c hc => ?_, fun hmany c hc => ?_⟩⟩
      · obtain ⟨o, hc⟩ := hany c hc
        rw [hexec hc, applyOutcome_discard hdiscard]
        rfl
      · rw [hexec hack, applyOutcome_probe hdiscard hkind]
        rfl
      · obtain ⟨o, ho, hc⟩ := hends c hc
        rw [hexec hc, applyOutcome_probe hdiscard hkind, if_neg ho]
        rfl
      · rw [hexec hack, applyOutcome_ack hdiscard hkind, ackDrop_wall (s := idled s) hrole]
        rfl
      · rw [hexec hack, applyOutcome_ack hdiscard hkind, ackDrop_other (s := idled s) hrole]
        rfl
      · obtain ⟨o, ho, hc⟩ := hends c hc
        rw [hexec hc, applyOutcome_fail hdiscard hkind ho, if_neg (show ¬ 2 ≤ (dropAt (idled s) f.drop).failures from Nat.not_le.2 hfew)]
        rfl
      · obtain ⟨o, ho, hc⟩ := hends c hc
        rw [hexec hc, applyOutcome_fail hdiscard hkind ho, if_pos (show 2 ≤ (dropAt (idled s) f.drop).failures from hmany)]
        rfl
    · intro third
      refine ⟨fun hstep _ e he => ?_, fun hstep hphase c hc => ?_⟩
      · have hcompletes : ∀ {c o}, EndsExchange f.drop c o → ∃ t₀ t,
            exec c { s with display := { s.display with frame := some { f with forStep := false }, step := .none } } = .next t₀ ∧
              exec c s = .next t ∧ UpToMarks (completes words (resultOf f.drop)
                (resultOf (stepOutcome o (decide (o ≠ .ack) && !f.discard && decide (2 ≤ (dropAt s f.drop).failures)))) t₀) t := by
          intro c o hc
          have hplain : Awaiting { f with forStep := false }
              { s with display := { s.display with frame := some { f with forStep := false }, step := .none } } :=
            ⟨hpin, rfl, hwindow, hdrop⟩
          refine ⟨_, _, hplain.exec_eq hc, hwait.exec_eq hc, ?_⟩
          have hidled : idled { s with display := { s.display with frame := some { f with forStep := false }, step := .none } } =
            stepping .none (idled s) := rfl
          rw [finishExchange_plain hplain.frame rfl nofun, finishExchange_forStep hframe hstep, applyOutcome_forStep, hidled,
            applyOutcome_stepping]
          exact upToMarks_completed rfl ((applyOutcome_cmd f o (idled s)).symm ▸ hwords) rfl _ _
        have hthird : (!f.discard && decide (2 ≤ d.failures)) = third := Bool.and_comm _ _
        simp only [List.mem_cons, List.not_mem_nil, or_false] at he
        obtain rfl | rfl | rfl := he
        · exact hcompletes hack
        · rw [← hthird, ← resultOf_nak]
          exact hcompletes (.nak [])
        · rw [← hthird, ← resultOf_noReply]
          exact hcompletes .close
      · obtain ⟨o, hc⟩ := hany c hc
        have hplain : Awaiting f (stepping .none s) := ⟨hpin, hframe, hwindow, hdrop⟩
        obtain ⟨b, hfinish⟩ := finishExchange_waiting hframe hstep hphase o
        have hidled : idled (stepping .none s) = stepping .none (idled s) := rfl
        have hphase' : (applyOutcome f o (idled s)).display.step = .waiting :=
          Eq.trans ((applyOutcome_only f o (idled s)).same .stepPhase) hphase
        have hidle : (applyOutcome f o (idled s)).display.frame = none := (applyOutcome_only f o (idled s)).same .frame
        have hexec := hplain.exec_eq hc
        rw [finishExchange_plain hplain.frame hstep nofun, hidled, applyOutcome_stepping] at hexec
        refine ⟨_, _, hexec, hwait.exec_eq hc, ?_⟩
        rw [hfinish]
        split
        · rename_i m hm
          rw [serveStep_some (s := noteIf _ _ _) hphase' hidle ((stepMark_eq _).trans ((find?_or_find?_not _ _).trans hm))]
          exact upToMarks_sent rfl rfl m
        · rename_i hm
          rw [serveStep_none (s := noteIf _ _ _) hphase' hidle ((stepMark_eq _).trans ((find?_or_find?_not _ _).trans hm))]
          exact upToMarks_completed rfl ((applyOutcome_cmd f o (idled s)).symm ▸ hwords) rfl _ _

end Sys2Proof.Machine
end

section
/-! PROOFS. The end of a cue message: presented at its last byte, or aborted at the byte limit. -/

namespace Sys2Proof.Machine

set_option Elab.async false

/-! ## A message presented (R115, R122, R137, R147) -/

section Presented

variable {m : Message} {s u : State}

/-- The queue after a presentation (R137): the record counted against leaves, or stays with its repeat counted. -/
def queueAfterPresentation (m : Message) (s : State) : List Cue :=
  match countedRecord m s with
  | some r =>
    if r.repeatCount = r.repeatsLeft then s.cues.queue.filter fun c => decide (c.order ≠ r.order)
    else s.cues.queue.map fun x => if x.order = r.order then x.presented s.refTime s.params.interval else x
  | none => s.cues.queue

theorem countPresentation_eq (m : Message) (s : State) :
    countPresentation m s = { s with cues := { s.cues with queue := queueAfterPresentation m s } } := by
  have hcounted : countPresentation m s = match countedRecord m s with
      | some r =>
        if r.repeatCount = r.repeatsLeft then dropRecord r.order s
        else modRecord r.order (Cue.presented s.refTime s.params.interval) s
      | none => s := by
    unfold countPresentation countedRecord
    split <;> rfl
  rw [hcounted, queueAfterPresentation]
  cases countedRecord m s with
  | none => rfl
  | some r =>
    by_cases hlast : r.repeatCount = r.repeatsLeft
    · simp only [if_pos hlast]
      rfl
    · simp only [if_neg hlast]
      rfl

/-- The slots after a presentation (R115, R122). -/
def slotsAfterPresentation (m : Message) (s : State) : List Slot := (reportPresented m s).slots

theorem reportPresented_eq (m : Message) (s : State) :
    reportPresented m s = { s with slots := slotsAfterPresentation m s } := by
  unfold slotsAfterPresentation reportPresented
  split
  · split
    · rfl
    · split
      · rfl
      · split <;> rfl
  · rfl

theorem slotsAfterPresentation_congr (h : u.slots = s.slots) : slotsAfterPresentation m u = slotsAfterPresentation m s := by
  simp only [slotsAfterPresentation, reportPresented, modSlot, setSlot, slotAt]
  split
  · split
    · exact h
    · split
      · simp only [h]
      · split <;> simp only [h]
  · exact h

theorem slotsAfterPresentation_platform {i : Nat} (hslot : m.cue.slot = some i) (hgone : m.gone = false)
    (hkind : m.cue.kind = .platformChange) :
    slotsAfterPresentation m s = s.slots.set i { slotAt s i with announced := m.cue.platform } := by
  rw [slotsAfterPresentation, reportPresented, hslot]
  simp only [hgone, Bool.false_eq_true, if_false, if_pos hkind]
  rfl

theorem slotsAfterPresentation_delay {i : Nat} (hslot : m.cue.slot = some i) (hgone : m.gone = false) (hkind : m.cue.kind = .delay) :
    slotsAfterPresentation m s = s.slots.set i { slotAt s i with lastCued := some m.cue.delay } := by
  rw [slotsAfterPresentation, reportPresented, hslot]
  simp only [hgone, Bool.false_eq_true, if_false, hkind, reduceCtorEq, if_true]
  rfl

theorem slotsAfterPresentation_other
    (h : m.cue.slot = none ∨ m.gone = true ∨ m.cue.kind ≠ .platformChange ∧ m.cue.kind ≠ .delay) :
    slotsAfterPresentation m s = s.slots := by
  unfold slotsAfterPresentation reportPresented
  split
  · rename_i hslot
    obtain h | h | ⟨hplatform, hdelay⟩ := h
    · exact absurd (hslot.symm.trans h) nofun
    · rw [if_pos h]
    · rw [if_neg hplatform, if_neg hdelay, ite_self]
  · rfl

/-- The link speaks on after the presentation (R147). -/
def speaksAfter (m : Message) (s : State) : Bool :=
  decide (s.params.linkMode ≠ .timed ∧ m.mode ≠ .timed) && s.cues.busyIn

theorem linkAfterPresentation_eq (m : Message) (s : State) : ∃ busy, linkAfterPresentation m s = { s with cues := { s.cues with
    busyTimer := busy
    link := if decide (s.params.linkMode = .off) then .off else if speaksAfter m s then .speaking else gapState s
    gapTimer := if decide (s.params.linkMode = .off) then none else if speaksAfter m s then s.cues.gapTimer else gapTime s } } := by
  by_cases hoff : s.params.linkMode = .off
  · refine ⟨none, (if_pos hoff).trans ?_⟩
    simp only [hoff, decide_true, if_true]
    rfl
  · refine ⟨s.cues.busyTimer, (if_neg hoff).trans ?_⟩
    simp only [hoff, decide_false, Bool.false_eq_true, if_false]
    by_cases htimed : s.params.linkMode = .timed ∨ m.mode = .timed
    · have hspeaks : speaksAfter m s = false := by
        rw [speaksAfter, decide_eq_false (by rwa [← not_or, not_not]), Bool.false_and]
      rw [if_pos htimed, hspeaks, enterGap_eq]
      rfl
    · have hspeaks : speaksAfter m s = s.cues.busyIn := by
        rw [speaksAfter, decide_eq_true (not_or.1 htimed), Bool.true_and]
      rw [if_neg htimed, hspeaks]
      split
      · rfl
      · exact enterGap_eq s

/-- All that a presentation changes. -/
theorem present_eq (m : Message) (s : State) : ∃ busy, present m s = { s with
    slots := slotsAfterPresentation m s
    cues := { s.cues with
      msg := none, strobe := false, busyTimer := busy, queue := queueAfterPresentation m s
      link := if decide (s.params.linkMode = .off) then .off else if speaksAfter m s then .speaking else gapState s
      gapTimer := if decide (s.params.linkMode = .off) then none else if speaksAfter m s then s.cues.gapTimer else gapTime s } } := by
  obtain ⟨busy, h⟩ := linkAfterPresentation_eq m (clearMessage (reportPresented m (countPresentation m s)))
  refine ⟨busy, ?_⟩
  have hslots : slotsAfterPresentation m { s with cues := { s.cues with queue := queueAfterPresentation m s } } =
      slotsAfterPresentation m s := slotsAfterPresentation_congr rfl
  rw [present, h, countPresentation_eq, reportPresented_eq, hslots]
  rfl

/-- The last byte's handshake is its message's presentation, whatever busy is. -/
theorem EndsHandshake.presents {c : Instr} (h : EndsHandshake c s m) (hpin : s.resetPin = false) (hmsg : s.cues.msg = some m)
    (hlast : m.index + 1 = m.bytes.length) :
    ∃ strobe msg, exec c s = .next (settle s (present m { s with cues := { s.cues with
      ackIn := ackAfter c s, strobe := strobe, msg := msg } })) := by
  have hbyte : ∀ u, completeByte m u = present m u := fun u =>
    if_pos (by rw [Message.lastByte, ← hlast]; exact decide_eq_true (Nat.le_refl _))
  obtain ⟨-, hexec, hack⟩ | ⟨hmode, hexec⟩ := h.exec_eq hpin hmsg
  · rw [hexec, hbyte, hack]
    exact ⟨_, _, rfl⟩
  · have hdone := handshakeDone_handshaken hmode
    obtain ⟨ack, pulse, heq⟩ := handshaken_eq m
    have htry : tryComplete (handshakeOver c s m) = present m (handshakeOver c s m) := by
      have hlast' : (handshaken m).lastByte = true := by
        rw [heq]
        exact decide_eq_true (Nat.le_of_eq hlast.symm)
      have hcomplete : tryComplete (handshakeOver c s m) = completeByte (handshaken m) (handshakeOver c s m) :=
        if_pos (by rw [hdone, hlast', Bool.true_or, Bool.and_self])
      rw [hcomplete, completeByte, if_pos hlast', heq]
      rfl
    rw [hexec, htry]
    exact ⟨_, _, rfl⟩

end Presented

/-! ## A message aborted (R119, R138, R139) -/

section Aborted

variable {m : Message} {s u : State}

/-- The count of an abort (R139): noted once, and the second time the record leaves. -/
theorem countAbort_eq (m : Message) (s : State) : countAbort m s = { s with
    att := if (countedRecord m s).any fun r => decide (r.aborts ≠ 0) then s.att.pend .cueDropped else s.att
    cues := { s.cues with queue := match countedRecord m s with
      | some r =>
        if r.aborts = 0 then s.cues.queue.map fun c => if c.order = r.order then { c with aborts := 1 } else c
        else s.cues.queue.filter fun c => decide (c.order ≠ r.order)
      | none => s.cues.queue } } := by
  have hcounted : countAbort m s = match countedRecord m s with
      | some r =>
        if r.aborts = 0 then modRecord r.order (fun c => { c with aborts := 1 }) s else pend .cueDropped (dropRecord r.order s)
      | none => s := by
    unfold countAbort countedRecord
    split <;> rfl
  rw [hcounted]
  cases countedRecord m s with
  | none => rfl
  | some r =>
    by_cases hfirst : r.aborts = 0
    · simp only [Option.any_some, hfirst, ne_eq, not_true_eq_false, decide_false, Bool.false_eq_true, if_false]
      rfl
    · simp only [Option.any_some, ne_eq, hfirst, not_false_eq_true, decide_true, if_true]
      rfl

theorem linkAfterAbort_eq (s : State) : ∃ busy, linkAfterAbort s = { s with cues := { s.cues with
    busyTimer := busy
    link := if decide (s.params.linkMode = .off) then .off else gapState s
    gapTimer := if decide (s.params.linkMode = .off) then none else gapTime s } } := by
  by_cases hoff : s.params.linkMode = .off
  · refine ⟨none, (if_pos hoff).trans ?_⟩
    simp only [hoff, decide_true, if_true]
    rfl
  · refine ⟨s.cues.busyTimer, (if_neg hoff).trans ?_⟩
    simp only [hoff, decide_false, Bool.false_eq_true, if_false]
    exact enterGap_eq s

theorem reportAborted_some {i : Nat} (h : setsBack m = some i) : reportAborted m s = setBackFrom i s := by
  unfold setsBack at h
  split at h
  · rw [reportAborted, h]
    exact if_pos ‹_›
  · cases h

theorem reportAborted_none (h : setsBack m = none) : reportAborted m s = s := by
  unfold setsBack at h
  unfold reportAborted
  split at h
  · rw [h]
  · split
    · exact if_neg ‹_›
    · rfl

/-- Where a record is set back, none is counted against (R138). -/
theorem countedRecord_of_setsBack {i : Nat} (h : setsBack m = some i) : countedRecord m s = none := by
  unfold setsBack at h
  split at h
  · rename_i hset
    exact if_neg hset.2
  · cases h

theorem ofKind_platformChange (i : Nat) : ofKind .platformChange i = changesSlot i := by
  funext c
  rw [ofKind, ofSlot, changesSlot, Bool.decide_and, Bool.and_comm]

/-- Nothing differs from itself. -/
theorem contentMarks_self (cause : Option Cause) (s : State) : contentMarks cause s s = [] := by
  have hrow : ∀ row, rowMark cause s s row = none := fun _ => if_pos rfl
  have hboard : ∀ p, boardMark cause s s p = none := fun _ => if_pos rfl
  simp only [contentMarks, hrow, hboard, List.filterMap_none, List.append_nil]

theorem compared_of_eq {cause : Option Cause} {f : State → State} (h : f s = s) : compared cause f s = s := by
  rw [compared, h, contentMarks_self]
  rfl

theorem sameContent_of_marksOnly {u v : State} (h : MarksOnly u v) : SameContent u v := by
  obtain ⟨marks, seq, rfl⟩ := h
  exact sameContent_of_eq rfl rfl rfl rfl rfl

/-- What a report of an abort leaves behind: queue, slots and flags; marks, where a highlight stopped. -/
structure AbortReported (m : Message) (s u : State) : Prop where
  changes : ∃ noted msg, u = { s with
    mem := { s.mem with noted := noted }
    slots := slotsAfterAbort m s
    att := if (countedRecord m s).any fun r => decide (r.aborts ≠ 0) then s.att.pend .cueDropped else s.att
    cues := { s.cues with queue := queueAfterAbort m s, msg := msg }
    display := { s.display with marks := u.display.marks, joinSeq := u.display.joinSeq } }
  quiet : slotsAfterAbort m s = s.slots → u.display = s.display
  marks : ∀ t, SameContent u t → t.display = u.display → ParamsSound s → DisplaySound s →
    MarksJoin (askedMarks false 0 s t) 0 s t

/-- The record set back goes nowhere. -/
def goesNowhere (i : Nat) (s : State) : Bool :=
  s.cues.queue.any fun c => changesSlot i c && decide (c.platform = (slotAt s i).announced)

theorem setBackFrom_nowhere {i : Nat} (h : goesNowhere i s = true) :
    setBackFrom i s = compared none (stopHighlight i) (removeCues (changesSlot i) s) := by
  rw [setBackFrom, ofKind_platformChange]
  exact if_pos h

theorem setBackFrom_stays {i : Nat} (h : goesNowhere i s = false) : setBackFrom i s = { s with cues := { s.cues with
    queue := s.cues.queue.map fun c => if changesSlot i c then { c with fromPlatform := (slotAt s i).announced } else c } } := by
  rw [setBackFrom, ofKind_platformChange]
  exact if_neg (by rw [← goesNowhere, h]; exact Bool.false_ne_true)

theorem countAbort_of_setsBack {i : Nat} (h : setsBack m = some i) : countAbort m s = s := by
  rw [countAbort_eq, countedRecord_of_setsBack h]
  rfl

theorem abortReported (m : Message) (s : State) : AbortReported m s (reportAborted m (countAbort m s)) := by
  cases hback : setsBack m with
  | none =>
    rw [reportAborted_none hback, countAbort_eq]
    have hslots : slotsAfterAbort m s = s.slots := by rw [slotsAfterAbort, hback]
    have hqueue : queueAfterAbort m s = match countedRecord m s with
        | some r =>
          if r.aborts = 0 then s.cues.queue.map fun c => if c.order = r.order then { c with aborts := 1 } else c
          else s.cues.queue.filter fun c => decide (c.order ≠ r.order)
        | none => s.cues.queue := by
      rw [queueAfterAbort, hback]
      cases countedRecord m s <;> rfl
    refine ⟨⟨s.mem.noted, s.cues.msg, ?_⟩, fun _ => rfl, fun t hsame hdisplay _ _ => ?_⟩
    · rw [hslots, hqueue]
    · exact marksJoin_of_sameContent ((sameContent_of_eq rfl rfl rfl rfl rfl).trans hsame) hdisplay
  | some i =>
    rw [countAbort_of_setsBack hback, reportAborted_some hback]
    have hcounted : countedRecord m s = none := countedRecord_of_setsBack hback
    cases hnowhere : goesNowhere i s with
    | false =>
      have hslots : slotsAfterAbort m s = s.slots := by
        rw [slotsAfterAbort, hback]
        exact if_neg (by rw [← goesNowhere, hnowhere]; exact Bool.false_ne_true)
      have hqueue : queueAfterAbort m s =
          s.cues.queue.map fun c => if changesSlot i c then { c with fromPlatform := (slotAt s i).announced } else c := by
        rw [queueAfterAbort, hback]
        exact if_neg (by rw [← goesNowhere, hnowhere]; exact Bool.false_ne_true)
      rw [setBackFrom_stays hnowhere]
      refine ⟨⟨s.mem.noted, s.cues.msg, ?_⟩, fun _ => rfl, fun t hsame hdisplay _ _ => ?_⟩
      · rw [hslots, hqueue, hcounted]
        rfl
      · exact marksJoin_of_sameContent ((sameContent_of_eq rfl rfl rfl rfl rfl).trans hsame) hdisplay
    | true =>
      have hslots : slotsAfterAbort m s = s.slots.set i { slotAt s i with highlight := none } := by
        rw [slotsAfterAbort, hback]
        exact if_pos hnowhere
      have hqueue : queueAfterAbort m s = s.cues.queue.filter fun c => !changesSlot i c := by
        rw [queueAfterAbort, hback]
        exact if_pos hnowhere
      rw [setBackFrom_nowhere hnowhere]
      obtain ⟨noted, msg, hremoved⟩ : ∃ noted msg, removeCues (changesSlot i) s = { s with
          mem := { s.mem with noted := noted }
          cues := { s.cues with queue := s.cues.queue.filter fun c => !changesSlot i c, msg := msg } } := by
        rw [removeCues, CueUnit.remove_eq]
        exact ⟨_, _, rfl⟩
      refine ⟨⟨noted, msg, ?_⟩, fun hsame => ?_, fun t hsame hdisplay hp hd => ?_⟩
      · obtain ⟨marks, seq, hcompared⟩ := compared_frame none (stopHighlight i) (removeCues (changesSlot i) s)
        rw [hcompared, hremoved, hslots, hqueue, hcounted]
        rfl
      · have hstopped : stopHighlight i (removeCues (changesSlot i) s) = removeCues (changesSlot i) s := by
          rw [hslots] at hsame
          rw [hremoved, stopHighlight, modSlot, setSlot]
          exact congrArg (fun slots => { s with
            slots := slots
            mem := { s.mem with noted := noted }
            cues := { s.cues with queue := s.cues.queue.filter fun c => !changesSlot i c, msg := msg } }) hsame
        rw [compared_of_eq hstopped]
        rfl
      · exact marksJoin_of_compared (f := stopHighlight i) (s := removeCues (changesSlot i) s) (asks_none 0) hp hd rfl rfl rfl rfl
          (sameContent_of_eq rfl rfl rfl rfl rfl) ((sameContent_of_marksOnly (compared_frame none _ _)).trans hsame)
          ⟨by rw [hdisplay], by rw [hdisplay]⟩

end Aborted

/-- Settles O48: at the last byte the presentation, at the byte limit the abort, and what each leaves. -/
theorem messageEndsPresentedOrAborted : Obligations.MessageEndsPresentedOrAborted := by
  unfold Obligations.MessageEndsPresentedOrAborted
  intro s m hpin hmsg
  refine ⟨fun c hlast hends => ?_, fun hmode => ?_⟩
  · intro off speaks
    obtain ⟨strobe, msg, hexec⟩ := hends.presents hpin hmsg hlast
    obtain ⟨busy, hpresent⟩ := present_eq m { s with cues := { s.cues with ackIn := ackAfter c s, strobe := strobe, msg := msg } }
    have hslots : slotsAfterPresentation m { s with cues := { s.cues with ackIn := ackAfter c s, strobe := strobe, msg := msg } } =
        slotsAfterPresentation m s := slotsAfterPresentation_congr rfl
    rw [hpresent, hslots] at hexec
    refine ⟨_, hexec, ?_⟩
    rw [settle_eq]
    exact ⟨rfl, fun i => slotsAfterPresentation_platform, fun i => slotsAfterPresentation_delay, slotsAfterPresentation_other, rfl⟩
  · intro off
    have hexec : exec .byteLimitExpiry s = .next (settle s (abort m s)) := by
      rw [exec_of_occurs (c := .byteLimitExpiry) rfl hpin (show sendingIn limited s = true by
        obtain hmode | hmode := hmode <;> simp [sendingIn, limited, hmsg, hmode])]
      show Host.Outcome.next (settle s (byteLimitPassed s)) = _
      rw [byteLimitPassed, hmsg]
    have hreported := abortReported m s
    obtain ⟨busy, hlink⟩ := linkAfterAbort_eq (clearMessage (reportAborted m (countAbort m s)))
    refine ⟨_, hexec, ?_⟩
    rw [abort, hlink]
    refine ⟨?_, fun hsame => ?_, ?_⟩
    · rw [settle_eq]
      obtain ⟨noted, msg, hu⟩ := hreported.changes
      generalize reportAborted m (countAbort m s) = u at hu
      rw [hu]
      rfl
    · obtain ⟨noted, msg, hu⟩ := hreported.changes
      have hslots : (reportAborted m (countAbort m s)).slots = slotsAfterAbort m s := by rw [hu]
      exact hreported.quiet (hslots.symm.trans hsame)
    · exact hreported.marks _ (sameContent_of_eq rfl rfl rfl rfl rfl) rfl

end Sys2Proof.Machine
end

section
/-! PROOFS. Seconds of the internal reference and master pulses: what each makes of the clock, and the frame of a time advance. -/

namespace Sys2Proof.Machine

set_option Elab.async false

/-! ## The frame of a time advance -/

theorem onlyTime_of_only {s u : State} (h : Only (.refTime :: timeLeaves) s u) : OnlyTime s (settle s u) := by
  have hu := h.overlay
  rw [OnlyTime, settle_eq, hu]
  rfl

theorem slotAt_staging_applied {s t : State} (h : Same .slotRecord s t) (i : Nat) :
    (slotAt t i).staging = (slotAt s i).staging ∧ (slotAt t i).applied = (slotAt s i).applied := by
  have hat : ∀ u : State, (u.slots.map fun x => (x.staging, x.applied)).getD i (Slot.reset.staging, Slot.reset.applied) =
      ((slotAt u i).staging, (slotAt u i).applied) := fun u =>
    List.getD_map ..
  have hpair := (hat t).symm.trans ((congrArg (·.getD i (Slot.reset.staging, Slot.reset.applied)) h).trans (hat s))
  exact Prod.ext_iff.1 hpair

theorem isPending_settle {e : EventClass} {s t : State} (h : IsPending e t) : IsPending e (settle s t) := by
  rw [settle_eq]
  exact h

/-- A day roll pends DAY_ROLL, and the advance keeps it pending (R53). -/
theorem timeAdvance_dayRoll {a : Advance} (h : a.roll = true) (stateChanged : Bool) (was s : State) :
    IsPending .dayRoll (timeAdvance a stateChanged was s) := by
  have hroll : IsPending .dayRoll (dayRoll (setT a.new s)) :=
    (isPending_pend .dayRoll _).of_flags
      ((((pruneRowMap_only _).trans (Only.foldl _ (fun t i => forget_only i t) _ _)).same .flags))
  have hslots : IsPending .dayRoll (advanceSlots a (setT a.new s)) := by
    rw [advanceSlots, if_pos h]
    exact hroll.of_flags (((reevaluate_only _).trans (runTimers_only _ _)).same .flags)
  have hhappens : a.happens = true := by simp [Advance.happens, h]
  rw [timeAdvance, if_pos hhappens]
  simp only
  split
  · exact hslots.of_flags (((noticeMinutes_only _ _).trans (handGroups_only _ _)).same .flags)
  · exact hslots.of_flags ((handGroups_only _ _).same .flags)

/-- A change of the clock state pends CLOCK_CHANGE, and the advance keeps it pending. -/
theorem applyClock_clockChange {c : Clock} {s : State} (h : c.state ≠ s.clock.state) (roll : Bool) :
    IsPending .clockChange (applyClock c roll s) := by
  have hpend : pendIf (decide (c.state ≠ s.clock.state)) .clockChange (setClockKeepT c s) =
      pend .clockChange (setClockKeepT c s) := by rw [decide_eq_true h]; rfl
  rw [applyClock, hpend]
  exact (isPending_pend .clockChange _).of_flags ((timeAdvance_only _ _ _ _).same .flags)

/-! ## What the table of R51 makes of the clock -/

theorem wrapT_eq {t : Nat} (h : t < 86400 + 86400) : wrapT t = (t % 86400, decide (86400 ≤ t)) := by
  unfold wrapT
  split
  · rw [decide_eq_true ‹_›, Nat.mod_eq_sub_mod ‹_›, Nat.mod_eq_of_lt (by omega)]
  · rw [decide_eq_false ‹_›, Nat.mod_eq_of_lt (by omega)]

/-- A tick, and whether T wraps with it (R51, R54). -/
theorem tick_eq {c : Clock} (h : c.t < 86400) : c.tick = (ticked c, decide (86400 ≤ c.t + tickSeconds c)) := by
  have hone := wrapT_eq (t := c.t + 1) (by omega)
  unfold Clock.tick ticked tickSeconds
  by_cases hpos : 0 < c.slew
  · rw [wrapT_eq (by omega)]
    simp only [hpos, if_true, if_neg (show ¬c.slew < 0 by omega)]
  · by_cases hneg : c.slew < 0
    · cases hhold : c.holdNext with
      | true =>
        simp only [hpos, hneg, if_false, if_true, and_self, Nat.add_zero, Nat.mod_eq_of_lt h, Bool.not_true,
          decide_eq_false (show ¬86400 ≤ c.t by omega)]
      | false =>
        simp only [hpos, hneg, if_false, if_true, Bool.false_eq_true, and_false, Bool.not_false, hone]
    · simp only [hpos, hneg, if_false, false_and, hone]

/-- The clock after a snap (R49). -/
def snapped (c : Clock) : Clock :=
  { c with t := if 30 ≤ c.t % 60 then (c.t - c.t % 60 + 60) % 86400 else c.t - c.t % 60 }

/-- A snap, and whether T wraps with it. -/
theorem snap_eq {c : Clock} (h : c.t < 86400) : c.snap = (snapped c, decide (86370 ≤ c.t)) := by
  unfold Clock.snap snapped
  split
  · rw [wrapT_eq (by omega)]
    refine Prod.ext rfl ?_
    rw [Bool.eq_iff_iff, decide_eq_true_eq, decide_eq_true_eq]
    omega
  · refine Prod.ext rfl ?_
    rw [eq_comm, decide_eq_false_iff_not]
    omega

/-- The reference ticks a clock that runs by it, and one locked to a minute master but at its last second (R51). -/
def ReferenceTicks (c : Clock) : Prop :=
  c.state = .running ∨ c.state = .freerun ∨ c.state = .locked ∧ c.source = .masterMinute ∧ c.t % 60 ≠ 59

theorem event_reference {c : Clock} (h : ReferenceTicks c) : c.event .reference = some c.tick := by
  obtain h | h | ⟨h, hsource, hsecond⟩ := h
  · simp only [Clock.event, h]
  · simp only [Clock.event, h]
  · simp only [Clock.event, h, if_pos hsource, if_neg hsecond]

theorem event_reference_none {c : Clock} (h : ¬ReferenceTicks c) : c.event .reference = none := by
  unfold Clock.event
  cases hstate : c.state with
  | unset => rfl
  | running => exact absurd (.inl hstate) h
  | freerun => exact absurd (.inr (.inl hstate)) h
  | locked =>
    by_cases hsource : c.source = .masterMinute
    · have hsecond : c.t % 60 = 59 := by
        by_contra hsecond
        exact h (.inr (.inr ⟨hstate, hsource, hsecond⟩))
      simp only [if_pos hsource, if_pos hsecond]
    · simp only [if_neg hsource]

theorem event_pulse_none {c : Clock} (h : c.state = .unset ∨ c.state = .running ∨ c.source = .internal) : c.event .pulse = none := by
  unfold Clock.event
  obtain h | h | h := h
  · rw [h]
  · rw [h]
  · rw [h]
    cases c.state <;> rfl

theorem event_pulse_second {c : Clock} (h : c.state = .locked ∨ c.state = .freerun) (hsource : c.source = .masterSecond) :
    c.event .pulse = some c.relock.tick := by
  obtain h | h := h <;> simp only [Clock.event, h, hsource]

theorem event_pulse_minute {c : Clock} (h : c.state = .locked ∨ c.state = .freerun) (hsource : c.source = .masterMinute) :
    c.event .pulse = some c.relock.snap := by
  obtain h | h := h <;> simp only [Clock.event, h, hsource]

theorem exec_reference {s : State} (hpin : s.resetPin = false) :
    exec .internalReferenceSecond s = .next (settle s (timeEvent .reference s)) :=
  exec_of_occurs (c := .internalReferenceSecond) rfl hpin rfl

theorem exec_pulse {s : State} (hpin : s.resetPin = false) : exec .masterPulse s = .next (settle s (timeEvent .pulse s)) :=
  exec_of_occurs (c := .masterPulse) rfl hpin rfl

theorem timeEvent_some {cause : TickCause} {s : State} {c : Clock} {roll : Bool} (h : s.clock.event cause = some (c, roll)) :
    timeEvent cause s = applyClock c roll (countReference cause s) := by
  rw [timeEvent, tickEvent, countReference_clock, h]

theorem timeEvent_none {cause : TickCause} {s : State} (h : s.clock.event cause = none) : timeEvent cause s = countReference cause s := by
  rw [timeEvent, tickEvent, countReference_clock, h]

/-! ## The rows -/

/-- What a second or a pulse that gives the clock a new value does beside moving the departures. -/
theorem timeEvent_facts {cause : TickCause} {s : State} {c : Clock} {roll : Bool} (h : s.clock.event cause = some (c, roll)) :
    let t := settle s (timeEvent cause s)
    t.clock = c ∧ (roll = true → IsPending .dayRoll t) ∧ (c.state ≠ s.clock.state → IsPending .clockChange t) ∧
      OnlyTime s t ∧ t.refTime = (countReference cause s).refTime := by
  refine ⟨?_, fun hroll => ?_, fun hchanged => ?_, onlyTime_of_only (timeEvent_only cause s), ?_⟩
  · rw [settle_eq]
    exact (timeEvent_clock cause s).trans (by rw [h]; rfl)
  · refine isPending_settle ?_
    rw [timeEvent_some h]
    exact timeAdvance_dayRoll hroll _ _ _
  · refine isPending_settle ?_
    rw [timeEvent_some h]
    exact applyClock_clockChange (by rwa [countReference_clock]) roll
  · rw [settle_eq]
    exact (tickEvent_only cause _).same .refTime

/-- Settles O27: by the table of R51 the second is a tick or is only counted. -/
theorem referenceSecondIsATick : Obligations.ReferenceSecondIsATick := by
  unfold Obligations.ReferenceSecondIsATick
  intro s hpin ht ticks
  refine ⟨fun hnot => ?_, fun hticks => ?_⟩
  · rw [exec_reference hpin, timeEvent_none (event_reference_none hnot)]
    rfl
  · have hevent := event_reference hticks
    rw [tick_eq ht] at hevent
    obtain ⟨hclock, hroll, -, honly, href⟩ := timeEvent_facts hevent
    refine ⟨_, exec_reference hpin, hclock, href, fun hwrap => hroll (decide_eq_true hwrap), fun i => ?_, honly⟩
    rw [settle_eq]
    exact slotAt_staging_applied ((timeEvent_only .reference s).same .slotRecord) i

/-- Settles O28: a pulse is ignored, ticks or snaps, by state and source; the timer's expiry frees the clock. -/
theorem masterPulsesLockTheClock : Obligations.MasterPulsesLockTheClock := by
  unfold Obligations.MasterPulsesLockTheClock
  intro s hpin ht
  refine ⟨fun hnot => ?_, fun hfree => ⟨fun hsource => ?_, fun hsource => ?_⟩, fun hloss => ?_⟩
  · rw [exec_pulse hpin, timeEvent_none (event_pulse_none hnot)]
    rfl
  · have hevent := event_pulse_second hfree hsource
    rw [tick_eq (c := s.clock.relock) ht] at hevent
    obtain ⟨hclock, hroll, hchange, honly, href⟩ := timeEvent_facts hevent
    refine ⟨_, exec_pulse hpin, hclock.trans ?_, fun hwrap => hroll (decide_eq_true hwrap), fun hfreerun => hchange ?_, honly, href⟩
    · have hloss : lossTime s.clock.source = 1500 := by rw [hsource]; rfl
      rw [← hloss]
      rfl
    · rw [hfreerun]
      exact nofun
  · have hevent := event_pulse_minute hfree hsource
    rw [snap_eq (c := s.clock.relock) ht] at hevent
    obtain ⟨hclock, hroll, hchange, honly, href⟩ := timeEvent_facts hevent
    refine ⟨_, exec_pulse hpin, hclock.trans ?_, fun hwrap => hroll (decide_eq_true hwrap), fun hfreerun => hchange ?_, honly, href⟩
    · have hloss : lossTime s.clock.source = 90000 := by rw [hsource]; rfl
      rw [← hloss]
      rfl
    · rw [hfreerun]
      exact nofun
  · rw [exec_of_occurs (c := .lossTimerExpiry) rfl hpin hloss]
    show Host.Outcome.next (settle s (loseLock s)) = _
    rw [loseLock, handMark_clockMark]
    rfl

end Sys2Proof.Machine
end

section
/-! PROOFS. POST NOTICE: its checks, the entry reserved, and the request that joins the fetch queue. -/

namespace Sys2Proof.Machine

set_option Elab.async false

/-! ## The checks (R153) -/

theorem bad_iff (p : Post) : p.bad = true ↔
    p.id = 0 ∨ 2 < p.cls ∨ p.dwell < 2 ∨ 60 < p.dwell ∨ 1440 < p.lifetime ∨ 4095 < p.phrase ∨ p.chain = 0 ∨ p.chain % 4 ≠ 0 := by
  simp only [Post.bad, Bool.or_eq_true, decide_eq_true_eq, or_assoc]

theorem postBad_iff (words : List Word) :
    (postOf words).bad = true ↔
      field (commandWord words 1) 0 8 = 0 ∨ field (commandWord words 1) 8 2 = 3 ∨ ¬Within 2 (field (commandWord words 1) 16 8) 60 ∨
        1440 < field (commandWord words 2) 0 16 ∨ 4095 < field (commandWord words 2) 16 16 ∨ (commandWord words 3).toNat = 0 ∨
        (commandWord words 3).toNat % 4 ≠ 0 := by
  have hcls := field_lt (commandWord words 1) 8 2
  rw [bad_iff, Within]
  simp only [postOf]
  omega

/-- An entry that a fetch is to give its text. -/
def Fetching (e : Entry) : Prop := e.state = .fetching ∨ e.state = .active ∧ e.replacing = true

theorem fetchPending_iff {s : State} (h : NoticeTableSound s) (id : Nat) :
    fetchPending s id = true ↔ ∃ i < 8, (entryAt s i).id = id ∧ Fetching (entryAt s i) := by
  have hne : ∀ {e : Entry}, Fetching e → e.state ≠ .empty := by
    rintro e (h | ⟨h, -⟩) <;> rw [h] <;> exact nofun
  constructor
  · intro hpending
    unfold fetchPending at hpending
    split at hpending
    · rename_i i hi
      obtain ⟨hlt, hstate, hid⟩ := entryWithId_some hi
      refine ⟨i, hlt, hid, ?_⟩
      rw [Bool.or_eq_true, decide_eq_true_eq] at hpending
      rw [Fetching]
      cases hs : (entryAt s i).state with
      | empty => exact absurd hs hstate
      | fetching => exact .inl rfl
      | active => exact .inr ⟨rfl, hpending.resolve_left (by rw [hs]; exact nofun)⟩
    · cases hpending
  · rintro ⟨i, hlt, hid, hfetching⟩
    rw [fetchPending, entryWithId_eq_some h hlt (hne hfetching) hid]
    obtain hs | ⟨-, hr⟩ := hfetching
    · simp [hs]
    · simp [hr]

theorem lowestEmpty_eq_some {s : State} {i : Nat} (hi : i < 8) (h : (entryAt s i).state = .empty)
    (hleast : ∀ j < i, (entryAt s j).state ≠ .empty) : lowestEmpty s = some i := by
  refine find?_eq_some_of_least List.pairwise_lt_range (List.mem_range.2 hi) (decide_eq_true h) fun b _ hb => ?_
  by_contra hlt
  exact hleast b (by omega) (of_decide_eq_true hb)

theorem lowestEmpty_eq_none {s : State} (h : ∀ i < 8, (entryAt s i).state ≠ .empty) : lowestEmpty s = none := by
  cases hfound : lowestEmpty s with
  | none => rfl
  | some i =>
    obtain ⟨hi, hempty⟩ := lowestEmpty_some hfound
    exact absurd hempty (h i hi)

/-! ## The request and the fetch (R154 to R156) -/

/-- The entry changed, with its words noted. -/
theorem changeEntry_eq (i : Nat) (f : Entry → Entry) (s : State) : ∃ noted, changeEntry i f s = { s with
    mem := { s.mem with noted := noted }
    notices := { s.notices with entries := s.notices.entries.set i (f (entryAt s i)) } } :=
  ⟨_, (noteEntry_only i s (modEntry i f s)).overlay⟩

section Queue

variable {s : State} {i : Nat} {p : Post}

/-- A fetch in progress, or the read of one abandoned, lets the request wait. -/
theorem queueFetch_waits (h : fetchWaits s = true) : queueFetch i p s = requestQueued (requestOf i p) s := by
  rw [queueFetch_eq]
  exact beginFetches_of_waits _ (s := requestQueued (requestOf i p) s) h

/-- No request waits, none is in progress, and no read is to be answered. -/
def FetchIdle (s : State) : Prop := s.notices.queue = [] ∧ s.notices.fetch = none ∧ s.notices.orphan = false

theorem queueFetch_idle (h : FetchIdle s) :
    queueFetch i p s =
      let t : State := { s with notices := { s.notices with queue := [requestOf i p], fetch := some (Fetch.begin p.chain) } }
      if s.params.memLimit * 0x10000 ≤ p.chain then finishFetch (.outOfRange p.chain) t else requestFetch p.chain t := by
  obtain ⟨hqueue, hfetch, horphan⟩ := h
  have hqueued : requestQueued (requestOf i p) s = { s with notices := { s.notices with queue := [requestOf i p] } } := by
    rw [requestQueued, hqueue]
    rfl
  rw [queueFetch_eq, hqueued, hqueue]
  refine if_neg ?_
  show ¬(s.notices.fetch.isSome || s.notices.orphan) = true
  rw [hfetch, horphan]
  exact Bool.false_ne_true

/-- The first word of the chain is requested. -/
theorem queueFetch_begins (h : FetchIdle s) (hchain : p.chain < s.params.memLimit * 0x10000) :
    queueFetch i p s = requestFetch p.chain
      { s with notices := { s.notices with queue := [requestOf i p], fetch := some (Fetch.begin p.chain) } } :=
  (queueFetch_idle h).trans (if_neg (Nat.not_le_of_lt hchain))

/-- A chain address beyond the memory limit ends the fetch at once (R156). -/
theorem queueFetch_ends (h : FetchIdle s) (hchain : s.params.memLimit * 0x10000 ≤ p.chain) :
    queueFetch i p s = pend .noticeDone { s with notices := { s.notices with
      entries := s.notices.entries.set i (Entry.finish (requestOf i p) [] (.outOfRange p.chain) (entryAt s i)) } } := by
  obtain ⟨hqueue, hfetch, -⟩ := id h
  have hunit : { s.notices with queue := [], fetch := none } = s.notices := by rw [← hqueue, ← hfetch]
  have hend := (queueFetch_idle (i := i) h).trans (if_pos hchain)
  rw [hend, finishFetch_eq (r := requestOf i p) (rest := []) rfl]
  refine (if_neg Bool.false_ne_true).trans ?_
  conv_rhs => rw [← hunit]
  rfl

end Queue

/-- Settles O35: the checks in their order, and the entry and request of a post that passes them. -/
theorem postNoticeReservesAndFetches : Obligations.PostNoticeReservesAndFetches := by
  unfold Obligations.PostNoticeReservesAndFetches
  intro err s a h hlength w1 w2 id chain bad busy full htable
  have hexec := exec_of_taken (c := .postNotice err) (act := postNotice) err h rfl rfl
  obtain ⟨u, hu⟩ : ∃ u, u = commandTaken err s := ⟨_, rfl⟩
  have hbad : (postOf s.cmd.staging).bad = true ↔ bad := postBad_iff s.cmd.staging
  have hbusy : fetchPending u (postOf s.cmd.staging).id = true ↔ busy := hu ▸ fetchPending_iff (s := s) htable id
  have hrefused : ∀ {q}, postRefusal u (postOf s.cmd.staging) = some q →
      ∃ t, exec (.postNotice err) s = .next t ∧ RefusedAt err q s t := fun hq => by
    rw [← hu] at hexec
    refine ⟨_, hexec, ?_⟩
    rw [postNotice, hq, hu]
    exact settle_refuse err _ s
  refine ⟨fun hb => ?_, fun hb hpending => ?_, fun hb hnot hqueue => ?_, fun hb hnot hqueue hfull => ?_, fun i hi hb hnot hqueue hentry => ?_⟩
  · exact hrefused (if_pos (hbad.2 hb))
  · exact hrefused ((if_neg (mt hbad.1 hb)).trans (if_pos (hbusy.2 hpending)))
  · refine hrefused ((if_neg (mt hbad.1 hb)).trans ((if_neg (mt hbusy.1 hnot)).trans (if_pos ?_)))
    rw [hu]
    exact Nat.le_of_eq hqueue.symm
  · refine hrefused ((if_neg (mt hbad.1 hb)).trans ((if_neg (mt hbusy.1 hnot)).trans ((if_neg ?_).trans (if_pos ?_))))
    · rw [hu]
      exact Nat.not_le_of_lt hqueue
    · rw [hu]
      exact ⟨entryWithId_eq_none (s := s) fun j hj => .inr (hfull j hj).2, lowestEmpty_eq_none (s := s) fun j hj => (hfull j hj).1⟩
  · intro replaces e r idle results
    have hplace : entryWithId u id = some i ∧ (entryAt s i).state = .active ∨
        entryWithId u id = none ∧ lowestEmpty u = some i ∧ (entryAt s i).state = .empty := by
      rw [hu]
      obtain ⟨hstate, hid⟩ | ⟨hother, hempty, hleast⟩ := hentry
      · exact .inl ⟨entryWithId_eq_some (s := s) htable hi (by rw [hstate]; exact nofun) hid, hstate⟩
      · exact .inr ⟨entryWithId_eq_none (s := s) hother, lowestEmpty_eq_some (s := s) hi hempty hleast, hempty⟩
    have hnone : postRefusal u (postOf s.cmd.staging) = none := by
      refine (if_neg (mt hbad.1 hb)).trans ((if_neg (mt hbusy.1 hnot)).trans ((if_neg ?_).trans (if_neg ?_)))
      · rw [hu]
        exact Nat.not_le_of_lt hqueue
      · rintro ⟨hfound, hlowest⟩
        obtain ⟨h', -⟩ | ⟨-, h', -⟩ := hplace
        · exact absurd (h'.symm.trans hfound) nofun
        · exact absurd (h'.symm.trans hlowest) nofun
    obtain ⟨f, hf, hposted⟩ : ∃ f : Entry → Entry, f (entryAt s i) = e ∧ postNotice s.cmd.staging u =
        completeDone [resultOf i, if replaces then 1 else 0] (queueFetch i (postOf s.cmd.staging) (changeEntry i f u)) := by
      obtain ⟨hfound, hstate⟩ | ⟨hfound, hlowest, hempty⟩ := hplace
      · have hreplaces : replaces = true := decide_eq_true hstate
        refine ⟨fun e => { e with replacing := true, result := .accepted }, (if_pos hreplaces).symm, ?_⟩
        rw [postNotice, hnone, hreplaces, show entryWithId u (postOf s.cmd.staging).id = some i from hfound]
        rfl
      · have hreplaces : replaces = false := decide_eq_false (by rw [hempty]; exact nofun)
        refine ⟨fun _ => reservedEntry id, (if_neg (by rw [hreplaces]; exact Bool.false_ne_true)).symm, ?_⟩
        rw [postNotice, hnone, hreplaces, show entryWithId u (postOf s.cmd.staging).id = none from hfound, hlowest]
        rfl
    have hrequest : requestOf i (postOf s.cmd.staging) = r := rfl
    obtain ⟨noted, hv⟩ := changeEntry_eq i f u
    rw [hu] at hv
    have hentries : (commandTaken err s).notices.entries.set i (f (entryAt (commandTaken err s) i)) = s.notices.entries.set i e :=
      congrArg (s.notices.entries.set i) hf
    rw [hentries] at hv
    rw [← hu, hposted, hu] at hexec
    refine ⟨_, hexec, fun hwaits => ?_, fun hidle hbelow => ?_, fun hidle hbeyond => ?_⟩
    · have hfetch : fetchWaits (changeEntry i f (commandTaken err s)) = true := by
        rw [hv]
        exact Bool.or_eq_true_iff.2 hwaits
      have hexecuting : Executing err [] s (requestQueued r (changeEntry i f (commandTaken err s))) := by
        rw [hv]
        exact (executing_commandTaken err s).of_eq rfl rfl rfl
      obtain ⟨hanswered, -, honly⟩ := settle_complete hexecuting (w := { s with notices := { s.notices with
        entries := s.notices.entries.set i e, queue := s.notices.queue ++ [r] } }) (by rw [hv]; rfl) .done .none
        [resultOf i, if replaces then 1 else 0]
      rw [queueFetch_waits hfetch, hrequest]
      exact ⟨hanswered, honly⟩
    · have hidle' : FetchIdle (changeEntry i f (commandTaken err s)) := by
        rw [hv]
        exact hidle
      have hchain : (postOf s.cmd.staging).chain < (changeEntry i f (commandTaken err s)).params.memLimit * 0x10000 := by
        rw [hv]
        exact hbelow
      rw [queueFetch_begins hidle' hchain, hrequest, hv]
      have hexecuting : Executing err []
          { s with mem := { s.mem with reads := s.mem.reads ++ [{ addr := chain, source := .fetch }] } }
          (requestFetch chain { commandTaken err s with
            mem := { (commandTaken err s).mem with noted := noted }
            notices := { s.notices with
              entries := s.notices.entries.set i e, queue := [r], fetch := some (Fetch.begin chain) } }) :=
        ⟨rfl, ⟨noted, rfl⟩, (executing_commandTaken err s).att⟩
      obtain ⟨hanswered, -, honly⟩ := settle_complete hexecuting (w := { s with notices := { s.notices with
        entries := s.notices.entries.set i e, queue := [r], fetch := some (Fetch.begin chain) } }) rfl .done .none
        [resultOf i, if replaces then 1 else 0]
      exact ⟨hanswered, honly⟩
    · have hidle' : FetchIdle (changeEntry i f (commandTaken err s)) := by
        rw [hv]
        exact hidle
      have hchain : (changeEntry i f (commandTaken err s)).params.memLimit * 0x10000 ≤ (postOf s.cmd.staging).chain := by
        rw [hv]
        exact hbeyond
      have hended : Entry.finish r [] (.outOfRange chain) e = { e with
          state := if replaces then .active else .empty, replacing := false, result := .outOfRange, errAddr := chain } := by
        have hstate : (if e.state = .active then EntryState.active else .empty) = if replaces then .active else .empty := by
          obtain ⟨-, hstate⟩ | ⟨-, -, hempty⟩ := hplace
          · have hreplaces : replaces = true := decide_eq_true hstate
            simp only [e, hreplaces, if_true, hstate]
          · have hreplaces : replaces = false := decide_eq_false (by rw [hempty]; exact nofun)
            simp only [e, hreplaces, Bool.false_eq_true, if_false, reduceCtorEq]
        exact congrArg (fun state => { e with state := state, replacing := false, result := .outOfRange, errAddr := chain }) hstate
      have hset : (s.notices.entries.set i e).set i (Entry.finish r [] (.outOfRange chain) e) =
          s.notices.entries.set i { e with
            state := if replaces then .active else .empty, replacing := false, result := .outOfRange, errAddr := chain } := by
        rw [hended, List.set_set]
      have hself : (s.notices.entries.set i e).getD i Entry.reset = e := by
        rw [List.getD_eq_getElem?_getD, List.getElem?_set_self (by omega)]
        rfl
      have hentry' : entryAt (changeEntry i f (commandTaken err s)) i = e := by
        rw [hv]
        exact hself
      rw [queueFetch_ends hidle' hchain, hrequest, hentry', hv]
      have hexecuting : Executing err [.noticeDone] s (pend .noticeDone { commandTaken err s with
          mem := { (commandTaken err s).mem with noted := noted }
          notices := { s.notices with
            entries := (s.notices.entries.set i e).set i (Entry.finish r [] (.outOfRange chain) e) } }) :=
        ⟨rfl, ⟨noted, rfl⟩, ((executing_commandTaken err s).pend .noticeDone).att⟩
      obtain ⟨hanswered, hatt, honly⟩ := settle_complete hexecuting (w := { s with notices := { s.notices with
        entries := (s.notices.entries.set i e).set i (Entry.finish r [] (.outOfRange chain) e) } }) rfl .done .none
        [resultOf i, if replaces then 1 else 0]
      refine ⟨hanswered, ?_, hset ▸ honly⟩
      rw [IsPending]
      exact (congrArg (fun att : Attention => att.pending.getLsbD EventClass.noticeDone.bit) hatt).trans
        (isPending_after (.inl (by simp)))

end Sys2Proof.Machine
end

section
/-! PROOFS. Fetching a notice's chain: the requests that begin, the end of a fetch, and what each answer leads to. -/

namespace Sys2Proof.Machine

set_option Elab.async false

/-! ## Events pended again -/

theorem Attention.pend_pend (c d : EventClass) (a : Attention) : (a.pend c).pend d = (a.pend d).pend c := by
  simp only [Attention.pend, BitVec.or_assoc, BitVec.or_comm c.flag, BitVec.or_comm (c.flag &&& a.mask)]

theorem Attention.pend_self (c : EventClass) (a : Attention) : (a.pend c).pend c = a.pend c := by
  simp only [Attention.pend, BitVec.or_assoc, BitVec.or_self]

theorem Attention.after_pend (events : List EventClass) (e : EventClass) (a : Attention) :
    (a.after events).pend e = (a.pend e).after events := by
  induction events generalizing a with
  | nil => rfl
  | cons c rest ih =>
    show ((a.pend c).after rest).pend e = ((a.pend e).pend c).after rest
    rw [ih, Attention.pend_pend]

/-- An event pended once more changes no flag. -/
theorem Attention.after_of_mem {events : List EventClass} {e : EventClass} (h : e ∈ events) (a : Attention) :
    (a.after events).pend e = a.after events := by
  induction events generalizing a with
  | nil => cases h
  | cons c rest ih =>
    obtain rfl | h := List.mem_cons.1 h
    · rw [Attention.after_pend]
      show ((a.pend e).pend e).after rest = (a.pend e).after rest
      rw [Attention.pend_self]
    · exact ih h (a.pend c)

theorem Attention.after_ite (b : Bool) (e : EventClass) (a : Attention) :
    a.after (if b = true then [e] else []) = if b = true then a.pend e else a := by
  cases b <;> rfl

/-! ## Requests that begin (R155, R156, R160) -/

/-- A request whose chain address is not below the memory limit. -/
def beyondLimit (s : State) (r : FetchReq) : Bool := decide (s.params.memLimit * 0x10000 ≤ r.chain)

/-- What the beginning of the waiting requests makes of a Notice Unit at rest. -/
structure Begun (v u : State) : Prop where
  queue : u.notices.queue = v.notices.queue.dropWhile (beyondLimit v)
  orphan : u.notices.orphan = false
  fetch : u.notices.fetch = (v.notices.queue.dropWhile (beyondLimit v)).head?.map fun r => Fetch.begin r.chain
  reads : u.mem.reads = v.mem.reads ++
    (v.notices.queue.dropWhile (beyondLimit v)).head?.toList.map fun r => { addr := r.chain, source := .fetch }
  entry : ∀ j < 8, entryAt u j =
    match (v.notices.queue.takeWhile (beyondLimit v)).find? fun r => decide (r.entry = j) with
    | some r => (entryAt v j).finished r (.failure .outOfRange r.chain)
    | none => entryAt v j
  rotation : RotationStays v u
  cues : u.cues = v.cues
  att : u.att = v.att.after (if v.notices.queue.head?.any (beyondLimit v) then [.noticeDone] else [])

/-- Entry j after entry i has been changed. -/
theorem entryAt_set {s : State} {i j : Nat} {e : Entry} (hlength : s.notices.entries.length = 8) (hi : i < 8) :
    (s.notices.entries.set i e).getD j Entry.reset = if j = i then e else entryAt s j := by
  rw [List.getD_eq_getElem?_getD]
  split
  · rename_i hj
    rw [hj, List.getElem?_set_self (by omega)]
    rfl
  · rename_i hj
    rw [List.getElem?_set_ne (Ne.symm hj), ← List.getD_eq_getElem?_getD]
    rfl

/-- The head request's fetch over: its entry finished, its request gone, NOTICE_DONE pended (R160). -/
def fetchOver (r : FetchReq) (more : List FetchReq) (x : Ending) (v : State) : State :=
  pend .noticeDone { v with notices := { v.notices with
    queue := more, fetch := none
    entries := v.notices.entries.set r.entry ((entryAt v r.entry).finished r x) } }

theorem finishFetch_beyond {r : FetchReq} {rest : List FetchReq} {v : State} (hqueue : v.notices.queue = r :: rest) :
    finishFetch (.outOfRange r.chain) { v with notices := { v.notices with fetch := some (Fetch.begin r.chain) } } =
      fetchOver r rest (.failure .outOfRange r.chain) v := by
  rw [finishFetch_eq (s := { v with notices := { v.notices with fetch := some (Fetch.begin r.chain) } }) hqueue, fetchOver]
  rfl

theorem beginFetches_begun (n : Nat) {v : State} (hn : v.notices.queue.length ≤ n) (hfetch : v.notices.fetch = none)
    (horphan : v.notices.orphan = false) (hlength : v.notices.entries.length = 8)
    (hnodup : (v.notices.queue.map (·.entry)).Nodup) (hlt : ∀ r ∈ v.notices.queue, r.entry < 8) :
    Begun v (beginFetches n v) := by
  induction n generalizing v with
  | zero =>
    have hqueue : v.notices.queue = [] := List.length_eq_zero_iff.1 (Nat.le_zero.1 hn)
    exact ⟨by rw [hqueue]; exact hqueue, horphan, by rw [hqueue]; exact hfetch, by rw [hqueue]; exact (List.append_nil _).symm,
      fun j _ => by rw [hqueue]; rfl, ⟨rfl, rfl, rfl, rfl⟩, rfl, by rw [hqueue]; rfl⟩
  | succ n ih =>
    cases hqueue : v.notices.queue with
    | nil =>
      have hu : beginFetches (n + 1) v = v := by rw [beginFetches, hqueue]
      rw [hu]
      exact ⟨by rw [hqueue]; rfl, horphan, by rw [hqueue]; exact hfetch, by rw [hqueue]; exact (List.append_nil _).symm,
        fun j _ => by rw [hqueue]; rfl, ⟨rfl, rfl, rfl, rfl⟩, rfl, by rw [hqueue]; rfl⟩
    | cons r rest =>
      have hidle : ¬(v.notices.fetch.isSome || v.notices.orphan) = true := by
        rw [hfetch, horphan]
        exact Bool.false_ne_true
      have hbegin : beginFetches (n + 1) v =
          if beyondLimit v r then beginFetches n (fetchOver r rest (.failure .outOfRange r.chain) v)
          else requestFetch r.chain { v with notices := { v.notices with fetch := some (Fetch.begin r.chain) } } := by
        rw [beginFetches, hqueue]
        refine (if_neg hidle).trans ?_
        by_cases hbeyond : memLimitBytes v ≤ r.chain
        · refine (if_pos hbeyond).trans ?_
          rw [finishFetch_beyond hqueue]
          exact (if_pos (decide_eq_true hbeyond)).symm
        · exact (if_neg hbeyond).trans (if_neg (by rw [beyondLimit, decide_eq_true_eq]; exact hbeyond)).symm
      rw [hqueue] at hnodup hlt hn
      obtain ⟨hnew, hnodup⟩ := List.nodup_cons.1 hnodup
      have hr : r.entry < 8 := hlt r List.mem_cons_self
      cases hbeyond : beyondLimit v r with
      | false =>
        rw [hbegin, hbeyond]
        have hdrop : (r :: rest).dropWhile (beyondLimit v) = r :: rest := List.dropWhile_cons_of_neg (by rw [hbeyond]; exact Bool.false_ne_true)
        have htake : (r :: rest).takeWhile (beyondLimit v) = [] := List.takeWhile_cons_of_neg (by rw [hbeyond]; exact Bool.false_ne_true)
        exact ⟨by rw [hqueue, hdrop]; exact hqueue, horphan, by rw [hqueue, hdrop]; rfl, by rw [hqueue, hdrop]; rfl,
          fun j _ => by rw [hqueue, htake]; rfl, ⟨rfl, rfl, rfl, rfl⟩, rfl,
          by rw [hqueue, List.head?_cons, Option.any_some, hbeyond]; rfl⟩
      | true =>
        have hset : ∀ j, entryAt (fetchOver r rest (.failure .outOfRange r.chain) v) j =
            if j = r.entry then (entryAt v j).finished r (.failure .outOfRange r.chain) else entryAt v j := fun j => by
          have hat := entryAt_set (s := v) (e := (entryAt v r.entry).finished r (.failure .outOfRange r.chain)) (j := j) hlength hr
          refine hat.trans ?_
          split
          · rename_i hj
            rw [hj]
          · rfl
        have hbegun : Begun (fetchOver r rest (.failure .outOfRange r.chain) v) (beginFetches n (fetchOver r rest (.failure .outOfRange r.chain) v)) :=
          ih (Nat.le_of_succ_le_succ hn) rfl horphan (by rw [fetchOver]; exact List.length_set.trans hlength) hnodup
            fun x hx => hlt x (List.mem_cons_of_mem r hx)
        have hdrop : (r :: rest).dropWhile (beyondLimit v) = rest.dropWhile (beyondLimit v) := List.dropWhile_cons_of_pos hbeyond
        have htake : (r :: rest).takeWhile (beyondLimit v) = r :: rest.takeWhile (beyondLimit v) := List.takeWhile_cons_of_pos hbeyond
        rw [hbegin, hbeyond]
        refine ⟨?_, hbegun.orphan, ?_, ?_, fun j hj => ?_, hbegun.rotation, hbegun.cues, ?_⟩
        · rw [hqueue, hdrop]
          exact hbegun.queue
        · rw [hqueue, hdrop]
          exact hbegun.fetch
        · rw [hqueue, hdrop]
          exact hbegun.reads
        · rw [hqueue, htake]
          refine (hbegun.entry j hj).trans ?_
          have hlimit : (fetchOver r rest (.failure .outOfRange r.chain) v).notices.queue.takeWhile (beyondLimit (fetchOver r rest (.failure .outOfRange r.chain) v)) =
            rest.takeWhile (beyondLimit v) := rfl
          rw [hlimit, hset]
          by_cases hj' : r.entry = j
          · have hnone : (rest.takeWhile (beyondLimit v)).find? (fun x => decide (x.entry = j)) = none :=
              List.find?_eq_none.2 fun x hx => by
                rw [decide_eq_true_eq]
                rintro hxj
                exact hnew (List.mem_map.2 ⟨x, (List.takeWhile_sublist _).subset hx, hxj.trans hj'.symm⟩)
            rw [List.find?_cons_of_pos (p := fun x : FetchReq => decide (x.entry = j)) (decide_eq_true hj'), hnone, if_pos hj'.symm]
          · rw [List.find?_cons_of_neg (p := fun x : FetchReq => decide (x.entry = j)) (by rw [decide_eq_true_eq]; exact hj'),
              if_neg (Ne.symm hj')]
        · refine hbegun.att.trans ?_
          rw [hqueue, List.head?_cons, Option.any_some, hbeyond]
          show (v.att.pend .noticeDone).after _ = v.att.after [.noticeDone]
          split
          · exact Attention.pend_self .noticeDone v.att
          · rfl

/-! ## The end of a fetch (R141, R160, R163) -/

/-- How an end ends the fetch that has collected this text. -/
def endingOf (e : FetchEnd) (buf : List Byte) : Ending := if e.success then .success e.result buf else .failure e.result e.addr

theorem Entry.finish_eq (r : FetchReq) (buf : List Byte) (e : FetchEnd) (x : Entry) :
    x.finish r buf e = x.finished r (endingOf e buf) := by
  unfold Entry.finish endingOf
  split <;> rfl

theorem endingOf_isSuccess (e : FetchEnd) (buf : List Byte) : (endingOf e buf).isSuccess = e.success := by
  cases e <;> rfl

theorem finishFetch_over {v : State} {r : FetchReq} {more : List FetchReq} {g : Fetch} (hqueue : v.notices.queue = r :: more)
    (hfetch : v.notices.fetch = some g) (e : FetchEnd) :
    finishFetch e v =
      if (endingOf e g.buf).isSuccess then showFetched r.entry (noticeCued r (fetchOver r more (endingOf e g.buf) v))
      else fetchOver r more (endingOf e g.buf) v := by
  have hover : pend .noticeDone (entryFinished r more e v) = fetchOver r more (endingOf e g.buf) v := by
    rw [fetchOver, ← Entry.finish_eq, entryFinished, fetchedText, hfetch]
    rfl
  rw [finishFetch_eq hqueue, hover, endingOf_isSuccess]

/-- A cue of the lowest class displaces none (R132). -/
theorem placeCue_lowest {u : CueUnit} {c : Cue} (hslot : c.slot = none) (hfull : 16 ≤ u.queue.length) (hrank : c.rank = 0) :
    u.placeCue c = (u, .dropped) := by
  rw [CueUnit.placeCue, if_neg (by rw [not_sameCue_of_slot hslot]; exact Bool.false_ne_true), if_neg (Nat.not_lt_of_le hfull)]
  cases hv : victim u with
  | none => rfl
  | some v => exact if_neg (by rw [hrank]; exact Nat.not_lt_zero _)

/-- The cue of a notice with a phrase joins, or is dropped from a full queue (R141). -/
theorem noticeCued_eq (r : FetchReq) (z : State) :
    let cue := decide (r.phrase ≠ 0)
    let full := decide (16 ≤ z.cues.queue.length)
    ∃ noted, noticeCued r z = { z with
      mem := { z.mem with noted := noted }
      att := if cue && full then z.att.pend .cueDropped else z.att
      cues := { z.cues with
        queue := if cue && !full then z.cues.queue ++ [{ phraseCue .notice r.phrase 0 with order := z.cues.next }] else z.cues.queue
        next := if cue && !full then z.cues.next + 1 else z.cues.next } } := by
  intro cue full
  by_cases hphrase : r.phrase = 0
  · have hcue : cue = false := decide_eq_false (not_not.2 hphrase)
    rw [hcue]
    exact ⟨z.mem.noted, if_pos hphrase⟩
  · have hcue : cue = true := decide_eq_true hphrase
    have hmade : noticeCued r z = makeCue (phraseCue .notice r.phrase 0) z := if_neg hphrase
    rw [hcue, hmade, makeCue, handCue]
    by_cases hroom : z.cues.queue.length < 16
    · have hfull : full = false := decide_eq_false (Nat.not_le_of_lt hroom)
      rw [placeCue_joined rfl hroom, hfull]
      exact ⟨_, rfl⟩
    · have hfull : full = true := decide_eq_true (Nat.le_of_not_lt hroom)
      rw [placeCue_lowest rfl (Nat.le_of_not_lt hroom) rfl, hfull]
      exact ⟨_, rfl⟩

theorem showFetched_shows {i : Nat} {z : State} (h : z.notices.shown = none ∧ nextShown z = some i ∨ z.notices.shown = some i) :
    showFetched i z = showing i z := by
  obtain ⟨hnone, hnext⟩ | hself := h
  · rw [showFetched, hnone]
    exact rotate_some hnext
  · rw [showFetched, hself]
    refine (if_pos rfl).trans ?_
    exact handMark_of_cause rfl _

theorem showFetched_stays {i j : Nat} {z : State} (h : z.notices.shown = some j) (hne : j ≠ i) : showFetched i z = z := by
  rw [showFetched, h]
  exact if_neg hne

/-- The state `w` in which request r's fetch, begun in `s`, has ended, and the next request has not begun. -/
structure Ended (x : Ending) (r : FetchReq) (more : List FetchReq) (rest : List ReadReq) (err : Bool) (s w : State) : Prop where
  queue : w.notices.queue = more
  fetch : w.notices.fetch = none
  orphan : w.notices.orphan = false
  params : w.params = s.params
  length : w.notices.entries.length = 8
  entry : ∀ j, entryAt w j = if j = r.entry then (entryAt s j).finished r x else entryAt s j
  reads : w.mem.reads = rest
  att : w.att = s.att.after ((if err then [.memoryFault] else []) ++ [.noticeDone] ++
    if x.isSuccess && decide (r.phrase ≠ 0) && decide (16 ≤ s.cues.queue.length) then [.cueDropped] else [])
  cues : w.cues = { s.cues with
    queue := if x.isSuccess && decide (r.phrase ≠ 0) && !decide (16 ≤ s.cues.queue.length) then
      s.cues.queue ++ [{ phraseCue .notice r.phrase 0 with order := s.cues.next }] else s.cues.queue
    next := if x.isSuccess && decide (r.phrase ≠ 0) && !decide (16 ≤ s.cues.queue.length) then s.cues.next + 1 else s.cues.next }

/-- What the end of request r's fetch makes of the rotation (R163). -/
def RotationEnds (x : Ending) (r : FetchReq) (s w : State) : Prop :=
  RotationSound s →
    if x.isSuccess = true ∧ (s.notices.shown = none ∨ s.notices.shown = some r.entry) then
      w.notices.shown = some r.entry ∧ w.notices.rotIndex = r.entry ∧ w.notices.dwellTimer = some r.dwell ∧
        w.display = (joinMark (markFor s.params.tickerDrop (decide (r.cls = .disruption)) none) s).display
    else RotationStays s w

/-- The state whose Memory Path and flags are those of an own read's answer, the fetch in progress going on as `g`. -/
structure FetchAnswered (g : Fetch) (rest : List ReadReq) (err : Bool) (s v : State) : Prop where
  state : v = { s with mem := v.mem, att := v.att, notices := { s.notices with fetch := some g } }
  reads : v.mem.reads = rest
  att : v.att = s.att.after (if err then [.memoryFault] else [])

section Ended

variable {s v : State} {r : FetchReq} {more : List FetchReq} {rest : List ReadReq} {err : Bool} {g : Fetch}

theorem entryAt_fetchOver (hlength : v.notices.entries.length = 8) (hr : r.entry < 8) (x : Ending) (j : Nat) :
    entryAt (fetchOver r more x v) j = if j = r.entry then (entryAt v j).finished r x else entryAt v j := by
  refine (entryAt_set hlength hr).trans ?_
  split
  · rename_i hj
    rw [hj]
  · rfl

/-- A failure: entry and NOTICE_DONE alone. -/
theorem FetchAnswered.ended_failure (h : FetchAnswered g rest err s v) (horphan : s.notices.orphan = false)
    (hlength : s.notices.entries.length = 8) (hr : r.entry < 8) {x : Ending} (hx : x.isSuccess = false) :
    Ended x r more rest err s (fetchOver r more x v) ∧ RotationEnds x r s (fetchOver r more x v) := by
  obtain ⟨mem, att, hv⟩ : ∃ mem att, v = { s with mem := mem, att := att, notices := { s.notices with fetch := some g } } :=
    ⟨_, _, h.state⟩
  have hreads := h.reads
  have hatt := h.att
  rw [hv] at hreads hatt ⊢
  refine ⟨⟨rfl, rfl, horphan, rfl, List.length_set.trans hlength, entryAt_fetchOver hlength hr x, hreads, ?_, ?_⟩, fun _ => ?_⟩
  · rw [hx, after_append, after_append, ← hatt]
    rfl
  · rw [hx]
    rfl
  · rw [hx]
    exact ⟨rfl, rfl, rfl, rfl⟩

/-- A success, before the rotation follows: entry, NOTICE_DONE and the cue. -/
theorem FetchAnswered.ended_cued (h : FetchAnswered g rest err s v) (horphan : s.notices.orphan = false)
    (hlength : s.notices.entries.length = 8) (hr : r.entry < 8) {x : Ending} (hx : x.isSuccess = true) :
    Ended x r more rest err s (noticeCued r (fetchOver r more x v)) ∧ RotationStays s (noticeCued r (fetchOver r more x v)) := by
  obtain ⟨mem, att, hv⟩ : ∃ mem att, v = { s with mem := mem, att := att, notices := { s.notices with fetch := some g } } :=
    ⟨_, _, h.state⟩
  have hreads := h.reads
  have hatt := h.att
  rw [hv] at hreads hatt ⊢
  obtain ⟨noted, hcued⟩ := noticeCued_eq r
    (fetchOver r more x { s with mem := mem, att := att, notices := { s.notices with fetch := some g } })
  rw [hcued]
  refine ⟨⟨rfl, rfl, horphan, rfl, List.length_set.trans hlength, entryAt_fetchOver hlength hr x, hreads, ?_, ?_⟩, ⟨rfl, rfl, rfl, rfl⟩⟩
  · rw [hx, Bool.true_and, after_append, after_append, ← hatt, Attention.after_ite]
    rfl
  · rw [hx, Bool.true_and]
    rfl

/-- The rotation that follows changes nothing of that. -/
theorem Ended.showFetched {x : Ending} {w : State} (h : Ended x r more rest err s w) (i : Nat) :
    Ended x r more rest err s (Machine.showFetched i w) := by
  rw [(showFetched_only i w).overlay]
  exact ⟨h.queue, h.fetch, h.orphan, h.params, h.length, h.entry, h.reads, h.att, h.cues⟩

/-- The rotation after a success: it shows the entry where it showed none, or showed it already. -/
theorem Ended.rotationEnds {x : Ending} {w : State} (h : Ended x r more rest err s w) (hstays : RotationStays s w) (hr : r.entry < 8)
    (hx : x.isSuccess = true) : RotationEnds x r s (Machine.showFetched r.entry w) := by
  intro hsound
  obtain ⟨hactive, hnone, -⟩ := hsound
  obtain ⟨hshown, hrot, hdwell, hdisplay⟩ := id hstays
  have hentry : entryAt w r.entry = (entryAt s r.entry).finished r x := (h.entry r.entry).trans (if_pos rfl)
  obtain ⟨result, text, rfl⟩ : ∃ result text, x = .success result text := by
    cases x with
    | success result text => exact ⟨result, text, rfl⟩
    | failure result errAddr => cases hx
  split
  · rename_i hshows
    have hshowing : Machine.showFetched r.entry w = showing r.entry w := by
      refine showFetched_shows ?_
      rw [hshown]
      refine hshows.2.imp_left fun hn => ⟨hn, nextShown_of_selects ⟨hr, by rw [hentry]; rfl, fun j hj hj' => ?_⟩⟩
      have hself : j = r.entry := by
        by_contra hne
        rw [h.entry, if_neg hne] at hj'
        exact hnone hn j hj hj'
      omega
    rw [hshowing, showing, joinMark_eq, hentry, h.params]
    exact ⟨rfl, rfl, rfl, joinMark_display _ hdisplay⟩
  · rename_i hnot
    obtain ⟨hnotnone, hnotself⟩ := not_or.1 fun hshows => hnot ⟨hx, hshows⟩
    obtain ⟨j, hj⟩ := Option.ne_none_iff_exists'.1 hnotnone
    rw [showFetched_stays (hshown.trans hj) fun hji => hnotself (hj.trans (congrArg some hji))]
    exact hstays

/-- The end of a fetch, and the requests that then begin. -/
theorem Ended.fetchEnds {x : Ending} {w : State} (h : Ended x r more rest err s w) (hrotation : RotationEnds x r s w)
    (hnodup : (more.map (·.entry)).Nodup) (hlt : ∀ q ∈ more, q.entry < 8) :
    FetchEnds x r more rest err s (settle s (beginFetches w.notices.queue.length w)) := by
  have hbegun := beginFetches_begun _ (Nat.le_refl _) h.fetch h.orphan h.length (by rw [h.queue]; exact hnodup) (by rw [h.queue]; exact hlt)
  generalize beginFetches w.notices.queue.length w = u at hbegun
  have hlimit : beyondLimit w = fun q => decide (s.params.memLimit * 0x10000 ≤ q.chain) := by
    funext q
    rw [beyondLimit, h.params]
  rw [settle_eq]
  have hqueue : (w.notices.queue.dropWhile (beyondLimit w)) = more.dropWhile fun q => decide (s.params.memLimit * 0x10000 ≤ q.chain) := by
    rw [h.queue, hlimit]
  refine ⟨⟨hbegun.queue.trans hqueue, hbegun.orphan, hbegun.fetch.trans (by rw [hqueue]; rfl), ?_, fun j hj => ?_⟩, ?_, ?_, fun hsound => ?_⟩
  · refine hbegun.reads.trans ?_
    rw [hqueue, h.reads]
  · refine (hbegun.entry j hj).trans ?_
    rw [h.queue, hlimit, h.entry] <;> rfl
  · refine hbegun.att.trans ?_
    rw [Attention.after_ite, h.att]
    split
    · exact Attention.after_of_mem (by simp) _
    · rfl
  · exact congrArg (fun cues : CueUnit => { cues with
      busyTimer := if busyTimed u = true then u.cues.busyTimer.or (some u.params.busyLimit) else none }) (hbegun.cues.trans h.cues)
  · obtain ⟨hshown, hrot, hdwell, hdisplay⟩ := hbegun.rotation
    have hends := hrotation hsound
    split
    · rename_i hshows
      rw [if_pos hshows] at hends
      obtain ⟨hshown', hrot', hdwell', hdisplay'⟩ := hends
      exact ⟨hshown.trans hshown', hrot.trans hrot', hdwell.trans hdwell', hdisplay.trans hdisplay'⟩
    · rename_i hshows
      rw [if_neg hshows] at hends
      obtain ⟨hshown', hrot', hdwell', hdisplay'⟩ := hends
      exact ⟨hshown.trans hshown', hrot.trans hrot', hdwell.trans hdwell', hdisplay.trans hdisplay'⟩

/-- A fetch in progress ends. -/
theorem FetchAnswered.endFetch (h : FetchAnswered g rest err s v) (hfits : FetchQueueFits s) (horphan : s.notices.orphan = false)
    (hqueue : s.notices.queue = r :: more) (e : FetchEnd) :
    FetchEnds (endingOf e g.buf) r more rest err s (settle s (Machine.endFetch e v)) := by
  obtain ⟨hlength, hnodup, hlt, -⟩ := hfits
  rw [hqueue] at hnodup hlt
  obtain ⟨-, hnodup⟩ := List.nodup_cons.1 hnodup
  have hr : r.entry < 8 := hlt r List.mem_cons_self
  have hmore : ∀ q ∈ more, q.entry < 8 := fun q hq => hlt q (List.mem_cons_of_mem r hq)
  have hover := finishFetch_over (v := v) (r := r) (more := more) (g := g) (by rw [h.state]; exact hqueue) (by rw [h.state]) e
  rw [Machine.endFetch, hover]
  cases hx : (endingOf e g.buf).isSuccess with
  | true =>
    obtain ⟨hended, hstays⟩ := h.ended_cued horphan hlength hr (more := more) hx
    exact (hended.showFetched r.entry).fetchEnds (hended.rotationEnds hstays hr hx) hnodup hmore
  | false =>
    obtain ⟨hended, hrotation⟩ := h.ended_failure horphan hlength hr (more := more) hx
    exact hended.fetchEnds hrotation hnodup hmore

theorem FetchAnswered.withFetch {f : Fetch} (h : FetchAnswered f rest err s v) (g : Fetch) :
    FetchAnswered g rest err s { v with notices := { v.notices with fetch := some g } } :=
  ⟨by rw [h.state], h.reads, h.att⟩

/-- The fetch goes on as `g`, or ends beyond the memory limit (R156). -/
def Proceeds (g : Fetch) (r : FetchReq) (more : List FetchReq) (rest : List ReadReq) (s t : State) : Prop :=
  if g.addr < s.params.memLimit * 0x10000 then FetchGoesOn g rest s t
  else FetchEnds (.failure .outOfRange g.addr) r more rest false s t

/-- The fragment ends by the table of R158. -/
def FragmentEnds (g : Fetch) (r : FetchReq) (more : List FetchReq) (rest : List ReadReq) (s t : State) : Prop :=
  if g.buf = [] ∧ (g.nextAddr = 0 ∨ g.count = 16) then FetchEnds (.failure .emptyText 0) r more rest false s t
  else if g.more then FetchEnds (.success .truncated g.buf) r more rest false s t
  else if g.nextAddr = 0 then FetchEnds (.success .ok g.buf) r more rest false s t
  else if g.buf.length = 240 ∨ g.count = 16 then FetchEnds (.success .truncated g.buf) r more rest false s t
  else if g.nextAddr % 4 ≠ 0 then FetchEnds (.failure .badAlign g.nextAddr) r more rest false s t
  else Proceeds { g with addr := g.nextAddr, stage := .descriptor 0 } r more rest s t

theorem FetchAnswered.continueFetch {f : Fetch} (h : FetchAnswered f rest false s v) (hfits : FetchQueueFits s)
    (horphan : s.notices.orphan = false) (hqueue : s.notices.queue = r :: more) (g : Fetch) :
    Proceeds g r more rest s (settle s (Machine.continueFetch g v)) := by
  have hparams : v.params = s.params := by rw [h.state]
  unfold Proceeds
  split
  · rename_i hbelow
    have hgoes : Machine.continueFetch g v = requestFetch g.addr { v with notices := { v.notices with fetch := some g } } :=
      if_neg (Nat.not_le_of_lt (by rw [memLimitBytes, hparams]; exact hbelow))
    have hreads := h.reads
    have hatt := h.att
    obtain ⟨mem, att, hv⟩ : ∃ mem att, v = { s with mem := mem, att := att, notices := { s.notices with fetch := some f } } :=
      ⟨_, _, h.state⟩
    rw [hgoes, settle_eq, hv]
    rw [hv] at hreads hatt
    exact ⟨by rw [← hreads]; rfl, rfl, hatt, rfl, rfl⟩
  · rename_i hbeyond
    have hends : Machine.continueFetch g v = Machine.endFetch (.outOfRange g.addr) { v with notices := { v.notices with fetch := some g } } :=
      if_pos (by rw [memLimitBytes, hparams]; exact Nat.le_of_not_lt hbeyond)
    rw [hends]
    exact (h.withFetch g).endFetch hfits horphan hqueue _

theorem FetchAnswered.endFragment {f : Fetch} (h : FetchAnswered f rest false s v) (hfits : FetchQueueFits s)
    (horphan : s.notices.orphan = false) (hqueue : s.notices.queue = r :: more) (g : Fetch) :
    FragmentEnds g r more rest s (settle s (Machine.endFragment g v)) := by
  have hend : ∀ e, FetchEnds (endingOf e g.buf) r more rest false s
      (settle s (Machine.endFetch e { v with notices := { v.notices with fetch := some g } })) :=
    (h.withFetch g).endFetch hfits horphan hqueue
  have hempty : g.buf.length = 0 ∧ (g.nextAddr = 0 ∨ g.count = 16) ↔ g.buf = [] ∧ (g.nextAddr = 0 ∨ g.count = 16) := by
    rw [List.length_eq_zero_iff]
  unfold FragmentEnds
  split
  · rename_i h₁
    rw [show Machine.endFragment g v = _ from if_pos (hempty.2 h₁)]
    exact hend .emptyText
  rename_i h₁
  have hnext : Machine.endFragment g v = _ := if_neg (mt hempty.1 h₁)
  rw [hnext]
  split
  · exact hend .truncated
  split
  · exact hend .ok
  split
  · exact hend .truncated
  split
  · exact hend (.badAlign g.nextAddr)
  · exact h.continueFetch hfits horphan hqueue _

end Ended

/-! ## The answer (R155, R159, R161) -/

theorem finishFetch_msg (e : FetchEnd) (s : State) : (finishFetch e s).cues.msg = s.cues.msg := by
  cases hqueue : s.notices.queue with
  | nil => rw [finishFetch, hqueue]
  | cons r more =>
    rw [finishFetch_eq hqueue]
    split
    · rw [(showFetched_only r.entry _).same .msg]
      obtain ⟨noted, hcued⟩ := noticeCued_eq r (pend .noticeDone (entryFinished r more e s))
      rw [hcued]
      rfl
    · rfl

/-- No message in flight is changed by a fetch: a notice's cue displaces no record. -/
theorem deliverFetch_msg (addr : Nat) (data : Word) (err : Bool) (s : State) :
    (deliverFetch addr data err s).cues.msg = s.cues.msg := by
  have hreads : DependsOn [.msg] fun u => u.cues.msg = s.cues.msg := fun u t hsame hu => Eq.trans (hsame .msg (by decide)) hu
  exact deliverFetch_keeps hreads (fun e u hu => (finishFetch_msg e u).trans hu) rfl addr data err rfl

/-- A leaf that is the same after all leaves the frame. -/
theorem Only.without {fs : List Leaf} {f : Leaf} {s t : State} (h : Only fs s t) (hf : Same f s t) :
    Only (fs.filter fun g => decide (g ≠ f)) s t := fun g => by
  by_cases hg : g = f
  · exact .inr (hg ▸ hf)
  · exact (h g).imp_left fun hmem => List.contains_iff_mem.2 (List.mem_filter.2 ⟨List.contains_iff_mem.1 hmem, decide_eq_true hg⟩)

section Answer

variable {s : State} {addr : Nat} {rest : List ReadReq} {err : Bool} {data : Word}

/-- The Memory Path once an own read of source FETCH is answered (R19). -/
def fetchRead (addr : Nat) (rest : List ReadReq) (err : Bool) (s : State) : MemPath :=
  { s.mem with
    port := .idle, counter := 0, reads := rest
    fault := if err then some (match s.mem.fault with
      | none => { addr := addr, write := false, source := .fetch, more := false }
      | some f => { f with more := true }) else s.mem.fault }

theorem readFaulted_fetch : readFaulted { addr := addr, source := .fetch } rest err s =
    { s with mem := fetchRead addr rest err s, att := s.att.after (if err then [.memoryFault] else []) } := by
  cases err with
  | false => rfl
  | true =>
    rw [fetchRead]
    cases hfault : s.mem.fault <;> simp only [readFaulted, recordFault, readTaken, hfault, if_true] <;> rfl

theorem onlyNotices_of_answer {v : State} (hv : v = { s with mem := fetchRead addr rest err s, att := v.att }) :
    let t := settle s (deliverFetch addr data err v)
    OnlyNotices { s with mem := { s.mem with port := .idle, counter := 0, reads := t.mem.reads, fault := t.mem.fault } } t ∧
      t.mem.fault = (fetchRead addr rest err s).fault := by
  have honly := deliverFetch_only addr data err v
  have hmsg := deliverFetch_msg addr data err v
  generalize deliverFetch addr data err v = u at honly hmsg
  have hu := (honly.without (f := .msg) hmsg).overlay
  rw [hv] at hu
  rw [settle_eq, hu]
  exact ⟨rfl, rfl⟩

end Answer

/-- Settles O14: the answer of an abandoned read lets the next request begin; any other goes on along the chain, or ends the fetch. -/
theorem fetchTakesItsChain : Obligations.FetchTakesItsChain := by
  unfold Obligations.FetchTakesItsChain
  intro data err s addr rest hpin hport hreads hfits
  have hexec := exec_ownReadComplete hpin hport hreads data err
  rw [deliver_fetch] at hexec
  obtain ⟨v, hv⟩ : ∃ v, v = readFaulted { addr := addr, source := .fetch } rest err s := ⟨_, rfl⟩
  rw [← hv] at hexec
  rw [readFaulted_fetch] at hv
  have hvstate : v = { s with mem := fetchRead addr rest err s, att := v.att } := by rw [hv]
  obtain ⟨honly, hfault⟩ := onlyNotices_of_answer (data := data) hvstate
  refine ⟨_, hexec, honly, hfault, fun horphan => ?_, fun f r more horphan hfetch hqueue => ?_⟩
  · obtain ⟨hlength, hnodup, hlt, hidle⟩ := hfits
    have hfetch : s.notices.fetch = none := by
      rw [horphan, Bool.and_true] at hidle
      exact Option.not_isSome_iff_eq_none.1 (by rw [hidle]; exact Bool.false_ne_true)
    have hdeliver : deliverFetch addr data err v = beginFetches s.notices.queue.length
        { v with notices := { s.notices with orphan := false } } := by
      rw [hv]
      exact if_pos horphan
    have hbegun := beginFetches_begun s.notices.queue.length (v := { v with notices := { s.notices with orphan := false } })
      (Nat.le_refl _) hfetch rfl hlength hnodup hlt
    rw [← hdeliver] at hbegun
    generalize deliverFetch addr data err v = u at hbegun
    have hatt : u.att = s.att.after ((if err then [.memoryFault] else []) ++
        if s.notices.queue.head?.any fun r => decide (s.params.memLimit * 0x10000 ≤ r.chain) then [.noticeDone] else []) := by
      rw [after_append]
      refine hbegun.att.trans ?_
      rw [hv]
      rfl
    have hcues : u.cues = s.cues := hbegun.cues.trans (by rw [hv])
    rw [hv] at hbegun
    rw [settle_eq]
    refine ⟨⟨hbegun.queue, hbegun.orphan, hbegun.fetch, hbegun.reads, fun j hj => (hbegun.entry j hj).trans rfl⟩, hbegun.rotation, ?_, hatt⟩
    exact congrArg (fun cues : CueUnit => { cues with
      busyTimer := if busyTimed u = true then u.cues.busyTimer.or (some u.params.busyLimit) else none }) hcues
  · intro proceeds fragmentEnds
    have hanswered : FetchAnswered f rest err s v := by
      rw [hv]
      refine ⟨?_, rfl, rfl⟩
      rw [← hfetch]
    have hdeliver : deliverFetch addr data err v = if err then endFetch (.memoryFault addr) v else fetchAnswer data f v := by
      rw [hv, deliverFetch]
      simp only [horphan, hfetch, Bool.false_eq_true, if_false]
    refine ⟨fun herr => ?_, fun herr => ?_⟩
    · rw [hdeliver, if_pos herr]
      exact hanswered.endFetch hfits horphan hqueue (.memoryFault addr)
    subst herr
    have hproceeds : ∀ g, deliverFetch addr data false v = continueFetch g v → proceeds g := fun g hgoes => by
      have h : Proceeds g r more rest s (settle s (deliverFetch addr data false v)) :=
        hgoes ▸ hanswered.continueFetch hfits horphan hqueue g
      exact h
    have hfragment : ∀ g, deliverFetch addr data false v = endFragment g v → fragmentEnds g := fun g hends => by
      have h : FragmentEnds g r more rest s (settle s (deliverFetch addr data false v)) :=
        hends ▸ hanswered.endFragment hfits horphan hqueue g
      exact h
    replace hdeliver : deliverFetch addr data false v = fetchAnswer data f v := hdeliver
    refine ⟨fun hstage => ?_, fun hstage => ?_, fun hstage => ?_, fun hstage => ?_⟩ <;> rw [fetchAnswer, hstage] at hdeliver
    · exact hproceeds _ hdeliver
    · have hlen : fragmentLength data = data.toNat % 65536 := by simp [fragmentLength, field]
      exact hproceeds _ (hlen ▸ hdeliver)
    · intro m g
      have hbegins : deliverFetch addr data false v =
          if m = 0 then endFragment g v else continueFetch { g with addr := data.toNat - data.toNat % 4, stage := .text } v := hdeliver
      split
      · exact hfragment g (hbegins.trans (if_pos ‹_›))
      · exact hproceeds _ (hbegins.trans (if_neg ‹_›))
    · intro bytes g
      have hbytes : textBytes f.pos f.left data = bytes := by
        simp only [textBytes, bytes, Bool.decide_and]
      have htakes : deliverFetch addr data false v = if g.left = 0 then endFragment g v else continueFetch g v := by
        rw [hdeliver, takeText, hbytes]
      split
      · exact hfragment g (htakes.trans (if_pos ‹_›))
      · exact hproceeds g (htakes.trans (if_neg ‹_›))

end Sys2Proof.Machine
end

section
/-! PROOFS. A record taken (R26 to R30): the derived fields, the place in the row map, and what its report leaves of slot and
footnotes. -/

namespace Sys2Proof.Machine

set_option Elab.async false

/-! ## The derived fields and the state, as the specification's tables give them (R27, R28, R64, R72) -/

theorem keysOf_eq {roll : Nat} (h : roll < 1440) (r : Record) : keysOf roll r = derivedKeys roll r := by
  have hks : (r.minute + 1440 - roll) % 1440 = (((r.minute : Int) - roll) % 1440).toNat := by omega
  have hoffset : r.day.offset = dayOffset r := by
    rw [dayOffset]
    cases r.day <;> rfl
  simp only [keysOf, derivedKeys, hks, hoffset]

theorem isSet_iff (c : Clock) : c.isSet = true ↔ c.state ≠ .unset := decide_eq_true_iff

theorem stateFor_eq (q : Params) (c : Clock) (cancelled : Bool) (ke : Int) :
    stateFor q c cancelled ke = tableState q c cancelled ke := by
  have hset : c.isSet = true ↔ c.state ≠ .unset := isSet_iff c
  exact if_congr .rfl (if_congr (and_congr_left' hset) rfl rfl) (if_congr (hset.not.trans not_not) rfl rfl)

theorem announceOpen_eq (q : Params) (c : Clock) (r : Record) (ke : Int) : announceOpen q c r ke = windowAt q c r ke := by
  simp only [announceOpen, windowAt, Clock.isSet, Bool.decide_and, Bool.and_assoc]
  rfl

theorem told_eq (i : Nat) (s : State) : toldPlatform s i = told i s := by
  unfold toldPlatform told
  cases s.cues.msg <;> rfl

/-! ## The place in the row map (R70, R75) -/

/-- The row map entries whose ordering key is below that of slot i with a new record. -/
def keyBelow (s : State) (ke : Int) (platform i j : Nat) : Bool :=
  decide (keOf s j < ke ∨ keOf s j = ke ∧ (platformOf s j < platform ∨ platformOf s j = platform ∧ j < i))

/-- The row map once slot i is placed with a new slot: it loses the slot, or has it at its key's place. -/
theorem place_setSlot_rowMap {s : State} {i : Nat} (hi : i < s.slots.length) {x : Slot} {r : Record} {k : Keys}
    (hr : x.applied = some r) (hk : x.keys = some k) :
    (place i (setSlot i x s)).rowMap =
      if x.state.active = true then
        (s.rowMap.filter fun j => decide (j ≠ i)).insertIdx
          ((s.rowMap.filter fun j => decide (j ≠ i)).countP (keyBelow s k.ke r.platform i)) i
      else s.rowMap.filter fun j => decide (j ≠ i) := by
  have hslot := slotAt_setSlot_same s x hi
  have hcount : ((s.rowMap.filter fun j => decide (j ≠ i)).filter fun j => before (setSlot i x s) j i).length =
      (s.rowMap.filter fun j => decide (j ≠ i)).countP (keyBelow s k.ke r.platform i) := by
    rw [← List.countP_eq_length_filter]
    refine List.countP_congr fun j hj => ?_
    have hne : j ≠ i := of_decide_eq_true (List.mem_filter.1 hj).2
    have hother := slotAt_setSlot_other s x hne
    rw [before_eq, keyLess_iff, keyBelow, decide_eq_true_iff]
    simp only [Slot.ke, Slot.platform, keOf, platformOf, hslot, hother, hr, hk, Option.map_some, Option.getD_some]
  rw [place, hslot]
  simp only [setSlot] at hcount ⊢
  rw [hcount]
  split <;> rfl

/-! ## The share of the report that is not of cues (R115, R117 to R120) -/

section Report

variable (i : Nat) (old : Slot) (r : Record) (s : State)

/-- What the steps of a report that are about cues may change. -/
theorem reportCues_only (u : State) :
    CuesOnly u (refreshCues i r (commitCourse i (delayRule i r (reportPlatformCue i old r (reportCancellation i old r u))))) := by
  have hcancel : ∀ u, CuesOnly u (reportCancellation i old r u) := by
    intro u
    unfold reportCancellation cancelCues reinstate
    split
    · split
      · simp only
        split
        · exact (removeCues_frame _ u).trans (makeCue_frame _ _)
        · exact removeCues_frame _ u
      · split
        · exact removeCues_frame _ u
        · exact .refl u
    · exact .refl u
  have hplatform : ∀ u, CuesOnly u (reportPlatformCue i old r u) := by
    intro u
    unfold reportPlatformCue changeCue
    split
    · split
      · exact removeCues_frame _ u
      · split
        · exact removeCues_frame _ u
        · exact makeCue_frame _ u
    · exact .refl u
  have hdelay : ∀ u, CuesOnly u (delayRule i r u) := by
    intro u
    unfold delayRule
    split
    · exact .refl u
    · split
      · exact makeCue_frame _ u
      · exact removeCues_frame _ u
  have hcourse : ∀ u, CuesOnly u (commitCourse i u) := by
    intro u
    unfold commitCourse
    split
    · exact removeCues_frame _ u
    · exact removeCues_frame _ u
    · exact .refl u
  have hrefresh : ∀ u, CuesOnly u (refreshCues i r u) := by
    intro u
    unfold refreshCues
    split
    · exact removeCues_frame _ u
    · exact ⟨_, u.cues.next, u.cues.msg, u.att, u.mem.noted, rfl⟩
  exact ((((hcancel u).trans (hplatform _)).trans (hdelay _)).trans (hcourse _)).trans (hrefresh _)

/-- The highlight after a report (R118). -/
def highlightAfter (d : Change) : Option Nat :=
  if d.moves then (if r.cancelled = false ∧ r.platform = told i s then none else some s.params.changeHold)
  else (slotAt s i).highlight

theorem moves_iff (d : Change) : d.moves = true ↔ d.compared = true ∧ d.old ≠ d.new ∧ d.old ≠ 0 ∧ d.new ≠ 0 := by
  rw [Change.moves, Bool.and_eq_true, decide_eq_true_iff]
  tauto

theorem footnoteAfter_stays {d : Change} (h : ¬(d.compared = true ∧ d.old ≠ d.new)) (board : Nat) (q : Params)
    (n : Option Footnote) : footnoteAfter d false i board q n = n := by
  have hstays : d.compared = false ∨ d.old = d.new ∨ q.p < board := by
    by_cases hc : d.compared = true
    · exact .inr (.inl (by_contra fun hne => h ⟨hc, hne⟩))
    · exact .inl (by simpa using hc)
  simp only [footnoteAfter, if_pos hstays, Bool.false_and, Bool.false_eq_true, ↓reduceIte]

theorem map_footnotes_self {f : Nat → Option Footnote → Option Footnote} (h : ∀ p n, f p n = n) (l : List (Option Footnote)) :
    (l.zipIdx.map fun e => f (e.2 + 1) e.1) = l := by
  simp only [h]
  exact List.zipIdx_map_fst 0 l

/-- The boards' share of a report (R117, R118, R120). -/
theorem reportBoards_eq {d : Change} (hc : d.compared = isCompared old) (ho : d.old = oldPlatform old) (hn : d.new = r.platform) :
    reportBoards i old r s = { s with
      slots := s.slots.set i { slotAt s i with highlight := highlightAfter i r s d }
      footnotes := s.footnotes.zipIdx.map fun e => footnoteAfter d false i (e.2 + 1) s.params e.1 } := by
  have hself : s.slots.set i { slotAt s i with highlight := (slotAt s i).highlight } = s.slots := setSlot_self i s
  rw [reportBoards, ← hc, ← ho, ← hn]
  by_cases hmove : d.compared = true ∧ d.old ≠ d.new
  · obtain ⟨hcompared, hne⟩ := hmove
    have hnotes : (redirect d.old d.new i s).footnotes =
        s.footnotes.zipIdx.map fun e => footnoteAfter d false i (e.2 + 1) s.params e.1 := by
      simp only [redirect, mapFootnotes, footnoteAfter, hcompared, hne, Bool.true_eq_false, false_or, Bool.false_and,
        Bool.false_eq_true, ↓reduceIte, refersTo_eq_any]
    rw [if_pos ⟨hcompared, hne⟩]
    by_cases hboth : d.old ≠ 0 ∧ d.new ≠ 0
    · have hmoves : d.moves = true := (moves_iff d).2 ⟨hcompared, hne, hboth⟩
      simp only [if_pos hboth, highlightAfter, if_pos hmoves]
      rw [changeHighlight, told_eq]
      have htold : told i (redirect d.old d.new i s) = told i s := rfl
      rw [htold, ← hnotes]
      by_cases hback : r.cancelled = false ∧ r.platform = told i s
      · simp only [if_pos hback]
        rfl
      · simp only [if_neg hback]
        rfl
    · have hmoves : ¬d.moves = true := fun h => hboth ((moves_iff d).1 h).2.2
      simp only [if_neg hboth, highlightAfter, if_neg hmoves, hself]
      rw [← hnotes]
      rfl
  · have hmoves : ¬d.moves = true := fun h => hmove ⟨((moves_iff d).1 h).1, ((moves_iff d).1 h).2.1⟩
    rw [if_neg hmove]
    simp only [highlightAfter, if_neg hmoves, hself, footnoteAfter_stays i hmove]
    rw [List.zipIdx_map_fst 0 s.footnotes]

/-- The announced platform once it is taken from the record where it was 0 (R115). -/
def announcedAfter (x : Slot) : Nat := if x.announced = 0 then (x.applied.map (·.platform)).getD 0 else x.announced

theorem announceFromRecord_slots :
    (announceFromRecord i s).slots = s.slots.set i { slotAt s i with announced := announcedAfter (slotAt s i) } := by
  have hset : (announceFromRecord i s).slots = s.slots.set i (if (slotAt s i).announced = 0 then
      { slotAt s i with announced := ((slotAt s i).applied.map (·.platform)).getD 0 } else slotAt s i) := rfl
  rw [hset, announcedAfter]
  by_cases h : (slotAt s i).announced = 0
  · rw [if_pos h, if_pos h]
  · rw [if_neg h, if_neg h]

/-- What a report leaves of slots, row map and footnotes. -/
theorem commitReport_eq (hi : i < s.slots.length) {quiet : Bool} {d : Change} (hc : d.compared = (!quiet && isCompared old))
    (ho : d.old = oldPlatform old) (hn : d.new = r.platform) :
    let t := commitReport i old r quiet s
    t.slots = s.slots.set i
        { slotAt s i with highlight := highlightAfter i r s d, announced := announcedAfter (slotAt s i) } ∧
      t.rowMap = s.rowMap ∧
      t.footnotes = s.footnotes.zipIdx.map fun e => footnoteAfter d false i (e.2 + 1) s.params e.1 := by
  intro t
  cases quiet with
  | true =>
    have hmoves : ¬d.moves = true := fun h => Bool.false_ne_true (hc.symm.trans ((moves_iff d).1 h).1)
    have hstays : ¬(d.compared = true ∧ d.old ≠ d.new) := fun h => Bool.false_ne_true (hc.symm.trans h.1)
    obtain ⟨_, _, _, _, _, hu⟩ := removeCues_frame (ofSlot i) s
    have ht : t = announceFromRecord i (removeCues (ofSlot i) s) := rfl
    have hself : t.footnotes = s.footnotes := by
      rw [ht, hu]
      rfl
    refine ⟨?_, ?_, ?_⟩
    · rw [ht, announceFromRecord_slots, hu, highlightAfter, if_neg hmoves]
      rfl
    · rw [ht, hu]
      rfl
    · rw [hself]
      exact (map_footnotes_self (fun p n => footnoteAfter_stays i hstays p s.params n) _).symm
  | false =>
    have hboards := reportBoards_eq i old r s (d := d) (hc.trans (Bool.true_and _)) ho hn
    obtain ⟨_, _, _, _, _, hu⟩ := reportCues_only i old r (reportBoards i old r s)
    have ht : t = announceFromRecord i (refreshCues i r (commitCourse i (delayRule i r (reportPlatformCue i old r
        (reportCancellation i old r (reportBoards i old r s)))))) := rfl
    rw [ht, hu]
    refine ⟨?_, ?_, ?_⟩
    · have hslot : slotAt (reportBoards i old r s) i = { slotAt s i with highlight := highlightAfter i r s d } := by
        rw [hboards]
        exact slotAt_setSlot_same (s := s) _ hi
      rw [announceFromRecord_slots]
      show List.set (reportBoards i old r s).slots i
        { slotAt (reportBoards i old r s) i with announced := announcedAfter (slotAt (reportBoards i old r s) i) } = _
      rw [hslot, hboards]
      exact List.set_set ..
    · show (reportBoards i old r s).rowMap = _
      rw [hboards]
    · show (reportBoards i old r s).footnotes = _
      rw [hboards]

end Report

end Sys2Proof.Machine
end

section
/-! PROOFS. A commit that takes its record (R26 to R30). -/

namespace Sys2Proof.Machine

set_option Elab.async false

/-! ## What taking a record makes of slot, row map and footnotes -/

theorem footnoteAfter_gone (d : Change) (i board : Nat) (q : Params) (n : Option Footnote) :
    footnoteAfter d true i board q n =
      if refersTo i (footnoteAfter d false i board q n) then none else footnoteAfter d false i board q n := by
  simp only [footnoteAfter, Bool.true_and, Bool.false_and, Bool.false_eq_true, ↓reduceIte, refersTo_eq_any]

theorem tableState_active {q : Params} {c : Clock} {cancelled : Bool} {ke : Int} :
    (tableState q c cancelled ke).active = true ↔ ¬tableState q c cancelled ke = .expired := by
  have hvacant := stateFor_ne_vacant q c cancelled ke
  rw [stateFor_eq] at hvacant
  cases h : tableState q c cancelled ke <;> simp [SlotState.active]
  exact hvacant h

/-- A slot's record taken: the slot, before its report. -/
theorem take_eq {s : State} {i : Nat} (hroll : s.clock.roll < 1440) :
    (slotAt s i).take s.params s.clock = { slotAt s i with
      applied := some (stagedRecord (slotAt s i).staging)
      keys := some (derivedKeys s.clock.roll (stagedRecord (slotAt s i).staging))
      state := tableState s.params s.clock (stagedRecord (slotAt s i).staging).cancelled
        (derivedKeys s.clock.roll (stagedRecord (slotAt s i).staging)).ke
      lastResult := .taken
      capped := decide (719 < field (stagedWord (slotAt s i).staging 3) 0 10)
      generation := field (stagedWord (slotAt s i).staging 5) 8 8 } := by
  simp only [Slot.take, keysOf_eq hroll, stateFor_eq, ← stagedRecord_eq]
  rfl

/-- The state with slot i's record taken and placed, before its report. -/
def takenPlaced (i : Nat) (s : State) : State := place i (setSlot i ((slotAt s i).take s.params s.clock) s)

theorem takenPlaced_frame (i : Nat) (s : State) :
    takenPlaced i s =
      { setSlot i ((slotAt s i).take s.params s.clock) s with rowMap := (takenPlaced i s).rowMap } := place_frame i _

section Take

variable {s : State} {i : Nat} (quiet : Bool)

theorem slotAt_takenPlaced (hi : i < s.slots.length) :
    slotAt (takenPlaced i s) i = (slotAt s i).take s.params s.clock := by
  rw [takenPlaced_frame]
  exact slotAt_setSlot_same s _ hi

theorem told_takenPlaced (hi : i < s.slots.length) : told i (takenPlaced i s) = told i s := by
  have hannounced : (slotAt (takenPlaced i s) i).announced = (slotAt s i).announced := by
    rw [slotAt_takenPlaced hi]
    rfl
  have hmsg : (takenPlaced i s).cues = s.cues := by
    rw [takenPlaced_frame]
    rfl
  simp only [told, hmsg, hannounced]

/-- The report of a record taken, before an expiry is handled. -/
def takenReported (i : Nat) (quiet : Bool) (s : State) : State :=
  commitReport i (slotAt s i) (recordOf (slotAt s i).staging) quiet (takenPlaced i s)

theorem applyRecord_eq : applyRecord i quiet s = forgetExpired i (takenReported i quiet s) := rfl

theorem changeOf_compared (r : Record) : (changeOf quiet i r s).compared = (!quiet && isCompared (slotAt s i)) := by
  simp only [changeOf, isCompared, Bool.decide_and]

/-- The slot, row map and footnotes of a record taken. -/
theorem applyRecord_takes (hi : i < s.slots.length) (hroll : s.clock.roll < 1440) :
    TakesRecord quiet i (slotAt s i).staging s (applyRecord i quiet s) := by
  obtain ⟨x, hx⟩ : ∃ x, x = slotAt s i := ⟨_, rfl⟩
  obtain ⟨r, hr⟩ : ∃ r, r = stagedRecord x.staging := ⟨_, rfl⟩
  obtain ⟨k, hk⟩ : ∃ k, k = derivedKeys s.clock.roll r := ⟨_, rfl⟩
  obtain ⟨state, hstate⟩ : ∃ state, state = tableState s.params s.clock r.cancelled k.ke := ⟨_, rfl⟩
  obtain ⟨d, hd⟩ : ∃ d, d = changeOf quiet i r s := ⟨_, rfl⟩
  have htake := take_eq (i := i) hroll
  rw [← hx, ← hr, ← hk, ← hstate] at htake
  have hslot := slotAt_takenPlaced hi
  rw [← hx, htake] at hslot
  have hlength : i < (takenPlaced i s).slots.length := by
    rw [takenPlaced_frame]
    exact (List.length_set ..).symm ▸ hi
  have hplacedSlots : (takenPlaced i s).slots = s.slots.set i (x.take s.params s.clock) := by
    rw [takenPlaced_frame, ← hx]
    rfl
  have hcompared : d.compared = (!quiet && isCompared x) := by
    rw [hd, hx]
    exact changeOf_compared quiet r
  obtain ⟨hslots, hrows, hnotes⟩ := commitReport_eq i x r (takenPlaced i s) hlength (quiet := quiet) (d := d) hcompared
    (by rw [hd, hx]; rfl) (by rw [hd]; rfl)
  have hreported : commitReport i x r quiet (takenPlaced i s) = takenReported i quiet s := by
    rw [takenReported, ← hx, hr, stagedRecord_eq]
  rw [hreported] at hslots hrows hnotes
  have hhighlight : highlightAfter i r (takenPlaced i s) d =
      if d.moves then (if r.cancelled = false ∧ r.platform = told i s then none else some s.params.changeHold)
      else x.highlight := by
    rw [highlightAfter, told_takenPlaced hi, hslot]
    have hparams : (takenPlaced i s).params = s.params := by
      rw [takenPlaced_frame]
      rfl
    rw [hparams]
  have hannounced : announcedAfter (slotAt (takenPlaced i s) i) = if x.announced = 0 then r.platform else x.announced := by
    rw [hslot]
    rfl
  rw [hhighlight, hannounced, hslot, hplacedSlots, List.set_set] at hslots
  have hnotes' : (takenReported i quiet s).footnotes =
      s.footnotes.zipIdx.map fun e => footnoteAfter d false i (e.2 + 1) s.params e.1 := by
    rw [hnotes, takenPlaced_frame]
    rfl
  have hreportedState : (slotAt (takenReported i quiet s) i).state = state := by
    rw [slotAt, hslots]
    simp [hi]
  have hactive : state.active = true ↔ ¬state = .expired := by
    rw [hstate]
    exact tableState_active
  have hrowMap : (takenPlaced i s).rowMap = if state = .expired then s.rowMap.filter fun j => decide (j ≠ i)
      else (s.rowMap.filter fun j => decide (j ≠ i)).insertIdx
        ((s.rowMap.filter fun j => decide (j ≠ i)).countP (keyBelow s k.ke r.platform i)) i := by
    rw [takenPlaced, ← hx, htake, place_setSlot_rowMap hi (r := r) (k := k) rfl rfl]
    exact (if_congr hactive rfl rfl).trans (ite_not ..)
  unfold TakesRecord
  simp only [← hx, ← hr, ← hk, ← hstate, ← hd]
  rw [applyRecord_eq, forgetExpired, hreportedState]
  by_cases hgone : state = .expired
  · obtain ⟨msg, noted, hforget⟩ := forget_frame i (takenReported i quiet s)
    have hreportedSlot := congrArg (fun l : List Slot => l.getD i .reset) hslots
    rw [if_pos hgone, hforget]
    refine ⟨?_, ?_, ?_⟩
    · have hat : slotAt (takenReported i quiet s) i = _ := hreportedSlot
      rw [hat, hslots]
      simp [hi, hgone]
    · simp only [hgone, decide_true, ↓reduceIte]
      exact (hrows.trans hrowMap).trans (if_pos hgone)
    · simp only [hgone, decide_true, footnoteAfter_gone, hnotes', List.map_map]
      rfl
  · rw [if_neg hgone]
    refine ⟨?_, ?_, ?_⟩
    · rw [hslots]
      simp [hgone]
    · simp only [hgone, decide_false, Bool.false_eq_true, ↓reduceIte]
      exact (hrows.trans hrowMap).trans (if_neg hgone)
    · simp only [hgone, decide_false]
      exact hnotes'

end Take

end Sys2Proof.Machine
end

section
/-! PROOFS. A commit that takes its record: its frame, a quiet one's cues, and the commit itself. -/

namespace Sys2Proof.Machine

set_option Elab.async false

theorem LosesItsCues.of_eq {gone gone' : Bool} {i : Nat} {s s' t t' : State} (h : LosesItsCues gone i s t) (hgone : gone = gone')
    (hs : s'.cues = s.cues) (ht : t'.cues = t.cues) : LosesItsCues gone' i s' t' := by
  subst hgone
  unfold LosesItsCues at h ⊢
  rw [hs, ht]
  exact h

theorem TakesRecord.of_eq {quiet : Bool} {i : Nat} {staging : List Word} {s t t' : State} (h : TakesRecord quiet i staging s t)
    (hslots : t'.slots = t.slots) (hrows : t'.rowMap = t.rowMap) (hnotes : t'.footnotes = t.footnotes) :
    TakesRecord quiet i staging s t' := by
  obtain ⟨h₁, h₂, h₃⟩ := h
  exact ⟨hslots.trans h₁, hrows.trans h₂, hnotes.trans h₃⟩

theorem takenPlaced_cues (i : Nat) (s : State) : (takenPlaced i s).cues = s.cues := by
  rw [takenPlaced_frame]
  rfl

theorem takenPlaced_att (i : Nat) (s : State) : (takenPlaced i s).att = s.att := by
  rw [takenPlaced_frame]
  rfl

theorem TakesRecord.settle {quiet : Bool} {i : Nat} {staging : List Word} {s t : State} (h : TakesRecord quiet i staging s t) :
    TakesRecord quiet i staging s (Machine.settle s t) := h

theorem LosesItsCues.settle {gone : Bool} {i : Nat} {s t : State} (h : LosesItsCues gone i s t) :
    LosesItsCues gone i s (Machine.settle s t) := h

section Take

variable {s : State} {i : Nat}

/-- The state the taken slot has. -/
theorem TakesRecord.state {quiet : Bool} {staging : List Word} {t : State} (h : TakesRecord quiet i staging s t)
    (hi : i < s.slots.length) :
    (slotAt t i).state = tableState s.params s.clock (stagedRecord staging).cancelled
      (derivedKeys s.clock.roll (stagedRecord staging)).ke := by
  obtain ⟨hslots, -⟩ := h
  rw [slotAt, hslots]
  simp [hi]

/-- An expiry is forgotten after the report, which leaves the state. -/
theorem takenReported_state (quiet : Bool) (hi : i < s.slots.length) :
    (slotAt (takenReported i quiet s) i).state = (slotAt (applyRecord i quiet s) i).state := by
  obtain ⟨_, _, _, _, _, _, _, _, _, hr⟩ :=
    commitReport_reports i (slotAt s i) (recordOf (slotAt s i).staging) quiet (takenPlaced i s)
  have hlength : i < (takenReported i quiet s).slots.length := by
    rw [takenReported, hr, takenPlaced_frame]
    simpa [setSlot] using hi
  rw [applyRecord_eq, forgetExpired]
  split
  · obtain ⟨msg, noted, hforget⟩ := forget_frame i (takenReported i quiet s)
    rw [hforget]
    simp [slotAt, hlength]
  · rfl

/-- A quiet record leaves no cue of its slot, and pends nothing. -/
theorem applyRecord_quiet (hi : i < s.slots.length) :
    LosesItsCues (decide ((slotAt (applyRecord i true s) i).state = .expired)) i s (applyRecord i true s) ∧
      (applyRecord i true s).att = s.att := by
  have hcues : (takenReported i true s).cues = (removeCues (ofSlot i) (takenPlaced i s)).cues := rfl
  have hatt : (takenReported i true s).att = s.att := takenPlaced_att i s
  have hlost : LosesItsCues false i s (takenReported i true s) :=
    (removeCues_losesItsCues i (takenPlaced i s)).of_eq rfl (takenPlaced_cues i s).symm hcues
  have hstate := takenReported_state (s := s) true hi
  rw [← hstate]
  rw [applyRecord_eq, forgetExpired]
  by_cases hgone : (slotAt (takenReported i true s) i).state = .expired
  · rw [if_pos hgone, decide_eq_true hgone]
    refine ⟨forget_losesItsCues (.inr hlost), hatt⟩
  · rw [if_neg hgone, decide_eq_false hgone]
    exact ⟨hlost, hatt⟩

/-- A record taken, with its comparison. -/
theorem takeRecord_takes (quiet : Bool) (hi : i < s.slots.length) (hroll : s.clock.roll < 1440) :
    let t := takeRecord i quiet s
    TakesRecord quiet i (slotAt s i).staging s t ∧
      (quiet = true → LosesItsCues (decide ((slotAt t i).state = .expired)) i s t ∧ t.att = s.att) ∧
      OnlySlots { s with mem := { s.mem with noted := t.mem.noted } } t := by
  intro t
  have htakes := applyRecord_takes quiet hi hroll
  obtain ⟨_, _, _, _, _, _, _, _, _, hr⟩ := applyRecord_reports i quiet s
  obtain ⟨marks, seq, ht⟩ : MarksOnly (applyRecord i quiet s) t := compared_frame _ _ s
  refine ⟨htakes.of_eq (by rw [ht]) (by rw [ht]) (by rw [ht]), fun hquiet => ?_, ?_⟩
  · subst hquiet
    obtain ⟨hlost, hatt⟩ := applyRecord_quiet hi
    have hslot : slotAt t i = slotAt (applyRecord i true s) i := by
      rw [ht]
      rfl
    exact ⟨hlost.of_eq (by rw [hslot]) rfl (by rw [ht]), by rw [ht]; exact hatt⟩
  · rw [place_frame] at hr
    rw [OnlySlots, ht, hr]
    rfl

end Take

/-- From `s` to `w` slot i has a new staging copy, and beside it only the Memory Path and the flags differ. -/
structure Stages (i : Nat) (staging : List Word) (s w : State) : Prop where
  frame : w = { s with mem := w.mem, att := w.att, slots := s.slots.set i { slotAt s i with staging := staging } }
  lt : i < s.slots.length

section Staged

variable {staging : List Word} {s w : State} {i : Nat}

theorem Stages.slots (h : Stages i staging s w) : w.slots = s.slots.set i { slotAt s i with staging := staging } := by
  rw [h.frame]

theorem Stages.lt' (h : Stages i staging s w) : i < w.slots.length := by
  rw [h.slots, List.length_set]
  exact h.lt

theorem Stages.slot (h : Stages i staging s w) : slotAt w i = { slotAt s i with staging := staging } := by
  rw [slotAt, h.slots]
  simp [h.lt]

theorem Stages.params (h : Stages i staging s w) : w.params = s.params := by rw [h.frame]

theorem Stages.clock (h : Stages i staging s w) : w.clock = s.clock := by rw [h.frame]

theorem Stages.cues (h : Stages i staging s w) : w.cues = s.cues := by rw [h.frame]

theorem Stages.shown (h : Stages i staging s w) (j : Nat) : (slotAt s j).SameShown (slotAt w j) := by
  by_cases hj : j = i
  · rw [hj, h.slot]
    exact ⟨rfl, rfl, rfl, rfl⟩
  · have hother : slotAt w j = slotAt s j := by
      rw [h.frame]
      exact slotAt_setSlot_other s _ hj
    rw [hother]
    exact ⟨rfl, rfl, rfl, rfl⟩

theorem Stages.told (h : Stages i staging s w) : told i w = told i s := by
  unfold Machine.told
  rw [h.slot, h.cues]

/-- What taking a record makes of the slot is said of the state before its staging as of the one after it. -/
theorem TakesRecord.of_staged {quiet : Bool} {t : State} (h : Stages i staging s w) (ht : TakesRecord quiet i staging w t) :
    TakesRecord quiet i staging s t := by
  have hke : ∀ j, keOf w j = keOf s j := fun j => by
    obtain ⟨-, hkeys, -⟩ := h.shown j
    simp only [keOf, hkeys]
  have hplatform : ∀ j, platformOf w j = platformOf s j := fun j => by
    obtain ⟨happlied, -⟩ := h.shown j
    simp only [platformOf, happlied]
  have hchange : ∀ r, changeOf quiet i r w = changeOf quiet i r s := fun r => by
    simp only [changeOf, h.slot]
  have hset : ∀ x, w.slots.set i x = s.slots.set i x := fun x => by
    rw [h.slots, List.set_set]
  have hrowMap : w.rowMap = s.rowMap := by rw [h.frame]
  have hfootnotes : w.footnotes = s.footnotes := by rw [h.frame]
  obtain ⟨hslots, hrows, hnotes⟩ := ht
  simp only [h.slot, hset, h.told, hchange, hke, hplatform, h.params, h.clock, hrowMap, hfootnotes] at hslots hrows hnotes
  exact ⟨hslots, hrows, hnotes⟩

end Staged

/-! ## The commit (R26 to R30) -/

section Commit

variable {s : State} {a : Access} {i : Nat} {err : Bool}

theorem CommitAt.lt (h : CommitAt s a i) : i < (commitWritten err a i s).slots.length := by
  obtain ⟨⟨-, -, -, hcls⟩, -, hlength⟩ := h
  have hlt := lt_of_addrClass_commit hcls
  have hlength' : (commitWritten err a i s).slots.length = 96 := (List.length_set ..).trans hlength
  omega

theorem CommitAt.stages (h : CommitAt s a i) : Stages i (stagedCommit s a i) s (commitWritten err a i s) where
  frame := rfl
  lt := by
    have hlt := h.lt (err := err)
    rwa [show (commitWritten err a i s).slots.length = s.slots.length from List.length_set ..] at hlt

/-- A commit considered and passed takes its record. -/
theorem handCommit_takes (h : CommitAt s a i) (hconsidered : Considered s i)
    (hvalid : flag (stagedWord (stagedCommit s a i) 5) 0 = true) (hpass : Passes s.params.p (stagedCommit s a i)) :
    handCommit i (commitWritten err a i s) = takeRecord i
      (flag (stagedWord (stagedCommit s a i) 5) 1 || decide (s.part.state = .loading)) (commitWritten err a i s) := by
  have hstaging : (slotAt (commitWritten err a i s) i).staging = stagedCommit s a i := by rw [slotAt_commitWritten_same err h]
  have hcode : refusalOf s.params.p (stagedCommit s a i) = none := refusalOf_eq_none_iff.2 hpass
  rw [handCommit_of_considered (s := commitWritten err a i s) hconsidered,
    considerCommit_takes (by rw [hstaging]; exact hvalid) (by rw [hstaging]; exact hcode), hstaging]
  rfl

/-- Settles O21: the report's share of slot, row map and footnotes, and a quiet one's removal of cues. -/
theorem commitTakesTheRecord : Obligations.CommitTakesTheRecord := by
  unfold Obligations.CommitTakesTheRecord
  intro err s a i h hconsidered hroll staging quiet hvalid hpass
  have hexec := exec_commit err h
  rw [handCommit_takes h hconsidered hvalid hpass] at hexec
  have htaken := takeRecord_takes quiet (s := commitWritten err a i s) h.lt hroll
  obtain ⟨t, ht⟩ : ∃ t, t = takeRecord i quiet (commitWritten err a i s) := ⟨_, rfl⟩
  rw [← ht] at hexec
  simp only [← ht, slotAt_commitWritten_same err h] at htaken
  obtain ⟨htakes, hquiet, honly⟩ := htaken
  refine ⟨settle s t, hexec, (htakes.of_staged h.stages).settle, fun hq => ?_, ?_⟩
  · obtain ⟨hlost, hatt⟩ := hquiet hq
    exact ⟨LosesItsCues.settle (hlost.of_eq rfl rfl rfl), hatt⟩
  · rw [settle_frame, OnlySlots, honly]
    rfl

end Commit

end Sys2Proof.Machine
end

section
/-! PROOFS. What a run of cue operations makes of the queue: of each slot and kind, whether its records left, were replaced in
place, or stay; the records that joined; and the message in flight (R131, R133, R136). -/

namespace Sys2Proof.Machine

set_option Elab.async false

/-! ## Records by slot and kind -/

/-- The record of a queue of slot i and this kind. -/
def waitingIn (i : Nat) (k : CueKind) (queue : List Cue) : Option Cue := queue.find? fun c => decide (c.slot = some i ∧ c.kind = k)

theorem waiting_eq (i : Nat) (k : CueKind) (s : State) : waiting i k s = waitingIn i k s.cues.queue := rfl

/-- A record of a slot whose slot and kind satisfy a test. -/
def Cue.keyed (test : Nat → CueKind → Bool) (c : Cue) : Bool := c.slot.any fun i => test i c.kind

/-- The cue made for the slot and kind of a record. -/
def Cue.madeFor (new : Nat → CueKind → Option Cue) (c : Cue) : Option Cue := c.slot.bind fun i => new i c.kind

/-- A record replaced in place by the cue made for its slot and kind. -/
def Cue.rewritten (new : Nat → CueKind → Option Cue) (c : Cue) : Cue :=
  match c.madeFor new with
  | some n => c.replaceBy n
  | none => c

/-- The condition of a message in flight: its record is told by its order. -/
def conditionAfter (dropped : Nat → CueKind → Bool) (new : Nat → CueKind → Option Cue) (queue : List Cue) (m : Message) :
    Condition :=
  match queue.find? fun c => decide (c.order = m.cue.order) with
  | some e =>
    if m.condition = .removed then .removed
    else if e.keyed dropped then .removed
    else if (e.madeFor new).isSome then .replaced
    else m.condition
  | none => m.condition

/-- From `u` to `v` the records of the slots and kinds in `dropped` left, a cue was made for those in `new`, which replaced the
record that waited or is among those that joined, and the records then were changed by `after`; the outcome of a message of a
slot in `gone` is to be ignored. -/
structure CuesSettle (dropped : Nat → CueKind → Bool) (new : Nat → CueKind → Option Cue) (gone : Nat → Bool) (joined : List Cue)
    (after : Cue → Cue) (u v : CueUnit) : Prop where
  frame : v = { u with queue := v.queue, next := v.next, msg := v.msg }
  queue : v.queue = ((u.queue.filter fun c => !c.keyed dropped).map (Cue.rewritten new) ++ joined).map after
  next : v.next = u.next + BitVec.ofNat 32 joined.length
  orders : joined.map (·.order) = (List.range joined.length).map fun n => u.next + BitVec.ofNat 32 n
  msg : (u.queue.map (·.order)).Nodup → v.msg = u.msg.map fun m =>
    { m with condition := conditionAfter dropped new u.queue m, gone := m.gone || m.cue.slot.any gone }
  cue : v.msg.map (·.cue) = u.msg.map (·.cue)
  found : ∀ i k, waitingIn i k joined = if (waitingIn i k u.queue).isNone then new i k else none
  slots : ∀ c ∈ joined, c.slot.isSome = true
  made : ∀ i k c, new i k = some c → dropped i k = false ∧ c.slot = some i ∧ c.kind = k
  keeps : ∀ c, (after c).slot = c.slot ∧ (after c).kind = c.kind ∧ (after c).order = c.order

theorem waitingIn_some {i : Nat} {k : CueKind} {queue : List Cue} {c : Cue} (h : waitingIn i k queue = some c) :
    c ∈ queue ∧ c.slot = some i ∧ c.kind = k :=
  ⟨List.mem_of_find?_eq_some h, of_decide_eq_true (List.find?_some (p := fun c : Cue => decide (c.slot = some i ∧ c.kind = k)) h)⟩

theorem waitingIn_isSome {i : Nat} {k : CueKind} {queue : List Cue} {c : Cue} (hc : c ∈ queue) (hslot : c.slot = some i)
    (hkind : c.kind = k) : (waitingIn i k queue).isSome = true :=
  List.find?_isSome.2 ⟨c, hc, decide_eq_true ⟨hslot, hkind⟩⟩

theorem keyed_of_slot {test : Nat → CueKind → Bool} {c : Cue} {i : Nat} (h : c.slot = some i) : c.keyed test = test i c.kind := by
  rw [Cue.keyed, h]
  rfl

theorem madeFor_of_slot {new : Nat → CueKind → Option Cue} {c : Cue} {i : Nat} (h : c.slot = some i) :
    c.madeFor new = new i c.kind := by
  rw [Cue.madeFor, h]
  rfl

/-! ## What a settled queue holds -/

section Settle

variable {dropped : Nat → CueKind → Bool} {new : Nat → CueKind → Option Cue} {gone : Nat → Bool} {joined : List Cue}
  {after : Cue → Cue} {u v : CueUnit}

theorem CuesSettle.madeFor_key (h : CuesSettle dropped new gone joined after u v) {c n : Cue} (hc : c.madeFor new = some n) :
    c.keyed dropped = false ∧ n.slot = c.slot ∧ n.kind = c.kind := by
  obtain ⟨i, hslot, hn⟩ := Option.bind_eq_some_iff.1 hc
  obtain ⟨hdropped, hns, hnk⟩ := h.made i c.kind n hn
  exact ⟨by rw [keyed_of_slot hslot, hdropped], hns.trans hslot.symm, hnk⟩

theorem CuesSettle.rewritten_key (h : CuesSettle dropped new gone joined after u v) (c : Cue) :
    (c.rewritten new).slot = c.slot ∧ (c.rewritten new).kind = c.kind ∧ (c.rewritten new).order = c.order := by
  unfold Cue.rewritten
  cases hn : c.madeFor new with
  | none => exact ⟨rfl, rfl, rfl⟩
  | some n =>
    obtain ⟨-, hslot, hkind⟩ := h.madeFor_key hn
    exact ⟨hslot, hkind, rfl⟩

/-- A joined record is one made, for a slot and kind of which none waited. -/
theorem CuesSettle.joined_made (h : CuesSettle dropped new gone joined after u v) {c : Cue} (hc : c ∈ joined) :
    (c.madeFor new).isSome = true := by
  obtain ⟨i, hslot⟩ := Option.isSome_iff_exists.1 (h.slots c hc)
  have hwaits := waitingIn_isSome hc hslot rfl
  rw [h.found] at hwaits
  rw [madeFor_of_slot hslot]
  split at hwaits
  · exact hwaits
  · cases hwaits

/-- What waits of each slot and kind. -/
theorem CuesSettle.waiting (h : CuesSettle dropped new gone joined after u v) (i : Nat) (k : CueKind) :
    waitingIn i k v.queue = (if dropped i k then none
      else match new i k with
        | some c => some (inPlaceOf (waitingIn i k u.queue) c)
        | none => waitingIn i k u.queue).map after := by
  have hafter : ((fun c => decide (c.slot = some i ∧ c.kind = k)) ∘ after) = fun c => decide (c.slot = some i ∧ c.kind = k) := by
    funext c
    obtain ⟨hslot, hkind, -⟩ := h.keeps c
    simp only [Function.comp_apply, hslot, hkind]
  have hrewritten : ((fun c => decide (c.slot = some i ∧ c.kind = k)) ∘ Cue.rewritten new) =
      fun c => decide (c.slot = some i ∧ c.kind = k) := by
    funext c
    obtain ⟨hslot, hkind, -⟩ := h.rewritten_key c
    simp only [Function.comp_apply, hslot, hkind]
  have hold : (u.queue.filter fun c => !c.keyed dropped).find? (fun c => decide (c.slot = some i ∧ c.kind = k)) =
      if dropped i k then none else waitingIn i k u.queue := by
    rw [List.find?_filter]
    by_cases hd : dropped i k = true
    · rw [if_pos hd, List.find?_eq_none]
      intro c _ hc
      rw [decide_eq_true_iff] at hc
      obtain ⟨hstays, hkey⟩ := hc
      obtain ⟨hslot, hkind⟩ := of_decide_eq_true hkey
      rw [keyed_of_slot hslot, hkind, hd] at hstays
      cases hstays
    · rw [if_neg hd]
      refine congrFun (congrArg _ (funext fun c => ?_)) _
      rw [Bool.eq_iff_iff, decide_eq_true_iff]
      refine ⟨fun hc => hc.2, fun hc => ⟨?_, hc⟩⟩
      obtain ⟨hslot, hkind⟩ := of_decide_eq_true hc
      rw [keyed_of_slot hslot, hkind]
      simpa using hd
  rw [waitingIn, h.queue, List.find?_map, hafter, List.find?_append, List.find?_map, hrewritten, hold]
  refine congrArg _ ?_
  have hfound := h.found i k
  rw [waitingIn] at hfound
  rw [hfound]
  by_cases hd : dropped i k = true
  · have hnone : new i k = none := by
      cases hn : new i k with
      | none => rfl
      | some c => exact absurd (h.made i k c hn).1 (by rw [hd]; exact Bool.noConfusion)
    simp only [if_pos hd, hnone, Option.map_none, Option.none_or, ite_self]
  · rw [if_neg hd, if_neg hd]
    cases hw : waitingIn i k u.queue with
    | none =>
      cases hn : new i k <;> rfl
    | some e =>
      obtain ⟨-, hslot, hkind⟩ := waitingIn_some hw
      have hrw : e.rewritten new = match new i k with | some c => e.replaceBy c | none => e := by
        rw [Cue.rewritten, madeFor_of_slot hslot, hkind]
      rw [Option.map_some, hrw]
      cases hn : new i k <;> rfl

theorem CuesSettle.length_le (h : CuesSettle dropped new gone joined after u v) :
    v.queue.length ≤ u.queue.length + joined.length := by
  rw [h.queue, List.length_map, List.length_append, List.length_map]
  exact Nat.add_le_add_right (List.length_filter_le _ _) _

/-- The records of other slots, and of none, stay. -/
theorem CuesSettle.elsewhere (h : CuesSettle dropped new gone joined after u v) {test : Cue → Bool}
    (hkeeps : ∀ c c' : Cue, c'.slot = c.slot → test c' = test c) (hold : ∀ c ∈ u.queue, test c = true → c.keyed dropped = false ∧
      c.madeFor new = none ∧ after c = c) (hjoined : ∀ c ∈ joined, test c = false) :
    v.queue.filter test = u.queue.filter test := by
  have hafter : test ∘ after = test := funext fun c => hkeeps c (after c) (h.keeps c).1
  have hrewritten : test ∘ Cue.rewritten new = test := funext fun c => hkeeps c _ (h.rewritten_key c).1
  have hnone : joined.filter test = [] := List.filter_eq_nil_iff.2 fun c hc => by simp [hjoined c hc]
  rw [h.queue, List.filter_map, hafter, List.filter_append, hnone, List.append_nil, List.filter_map, hrewritten, List.map_map,
    List.filter_filter]
  have hstay : (u.queue.filter fun c => test c && !c.keyed dropped) = u.queue.filter test := by
    refine List.filter_congr fun c hc => ?_
    by_cases ht : test c = true
    · simp [(hold c hc ht).1]
    · simp [ht]
  rw [hstay]
  refine (List.map_congr_left (g := id) fun c hc => ?_).trans (List.map_id _)
  obtain ⟨hmem, htest⟩ := List.mem_filter.1 hc
  obtain ⟨-, hnew, hsame⟩ := hold c hmem htest
  simp only [Function.comp_apply, Cue.rewritten, hnew, hsame, id_eq]

/-! ## The steps -/

theorem CuesSettle.refl (u : CueUnit) : CuesSettle (fun _ _ => false) (fun _ _ => none) (fun _ => false) [] id u u where
  frame := rfl
  queue := by
    have hkeyed : ∀ c : Cue, c.keyed (fun _ _ => false) = false := fun c => by cases hs : c.slot <;> simp [Cue.keyed, hs]
    have hmade : Cue.rewritten (fun _ _ => none) = id := funext fun c => by
      cases hs : c.slot <;> simp [Cue.rewritten, Cue.madeFor, hs]
    simp [hkeyed, hmade]
  next := (BitVec.add_zero _).symm
  orders := rfl
  msg := fun _ => by
    have hsame : ∀ m : Message, ({ m with
        condition := conditionAfter (fun _ _ => false) (fun _ _ => none) u.queue m
        gone := m.gone || m.cue.slot.any fun _ => false } : Message) = m := by
      intro m
      have hgone : (m.gone || m.cue.slot.any fun _ => false) = m.gone := by cases m.cue.slot <;> simp
      have hcondition : conditionAfter (fun _ _ => false) (fun _ _ => none) u.queue m = m.condition := by
        unfold conditionAfter
        cases hf : u.queue.find? fun c => decide (c.order = m.cue.order) with
        | none => rfl
        | some e =>
          by_cases hm : m.condition = .removed
          · simp only [hm, ↓reduceIte]
          · cases hs : e.slot <;> simp [hm, Cue.keyed, Cue.madeFor, hs]
      rw [hgone, hcondition]
    simp only [hsame, Option.map_id']
  cue := rfl
  found := fun i k => by simp [waitingIn]
  slots := nofun
  made := nofun
  keeps := fun _ => ⟨rfl, rfl, rfl⟩

/-- The record a message in flight is told by. -/
theorem find_order {queue : List Cue} (hnodup : (queue.map (·.order)).Nodup) (order : BitVec 32) {e : Cue} (he : e ∈ queue)
    (horder : e.order = order) : (queue.find? fun c => decide (c.order = order)) = some e := by
  induction queue with
  | nil => cases he
  | cons c rest ih =>
    rw [List.map_cons, List.nodup_cons] at hnodup
    obtain ⟨hnot, hrest⟩ := hnodup
    rcases List.mem_cons.1 he with rfl | hmem
    · simp [horder]
    · have hne : ¬c.order = order := fun h => hnot (List.mem_map.2 ⟨e, hmem, horder.trans h.symm⟩)
      rw [List.find?_cons_of_neg (by simpa using hne)]
      exact ih hrest hmem

/-- A test of slot and kind that no cue made satisfies holds of a record in flight exactly where it waited before. -/
theorem CuesSettle.any_order (h : CuesSettle dropped new gone joined after u v) (hnodup : (u.queue.map (·.order)).Nodup)
    {test : Nat → CueKind → Bool} (hjoined : ∀ c ∈ joined, c.keyed test = false) (m : Message) :
    (v.queue.any fun c => c.keyed test && decide (c.order = m.cue.order)) =
      match u.queue.find? fun c => decide (c.order = m.cue.order) with
      | some e => e.keyed test && !e.keyed dropped
      | none => false := by
  have hkeyed : ∀ {c c' : Cue}, c'.slot = c.slot → c'.kind = c.kind → c'.keyed test = c.keyed test := fun hs hk => by
    rw [Cue.keyed, Cue.keyed, hs, hk]
  have hafter : ∀ c : Cue, (after (c.rewritten new)).keyed test = c.keyed test ∧ (after (c.rewritten new)).order = c.order := fun c => by
    obtain ⟨hs, hk, ho⟩ := h.keeps (c.rewritten new)
    obtain ⟨hs', hk', ho'⟩ := h.rewritten_key c
    exact ⟨hkeyed (hs.trans hs') (hk.trans hk'), ho.trans ho'⟩
  have hiff : (v.queue.any fun c => c.keyed test && decide (c.order = m.cue.order)) = true ↔
      ∃ e ∈ u.queue, e.order = m.cue.order ∧ e.keyed test = true ∧ e.keyed dropped = false := by
    rw [List.any_eq_true, h.queue]
    constructor
    · rintro ⟨c, hc, htest⟩
      rw [Bool.and_eq_true, decide_eq_true_iff] at htest
      obtain ⟨d, hd, rfl⟩ := List.mem_map.1 hc
      rcases List.mem_append.1 hd with hold | hnew
      · obtain ⟨e, he, rfl⟩ := List.mem_map.1 hold
        obtain ⟨hmem, hstays⟩ := List.mem_filter.1 he
        rw [(hafter e).1, (hafter e).2] at htest
        exact ⟨e, hmem, htest.2, htest.1, by simpa using hstays⟩
      · obtain ⟨hs, hk, -⟩ := h.keeps d
        rw [hkeyed hs hk, hjoined d hnew] at htest
        exact absurd htest.1 Bool.false_ne_true
    · rintro ⟨e, hmem, horder, htest, hstays⟩
      refine ⟨after (e.rewritten new), List.mem_map.2 ⟨_, List.mem_append.2 (.inl (List.mem_map.2 ⟨e, ?_, rfl⟩)), rfl⟩, ?_⟩
      · exact List.mem_filter.2 ⟨hmem, by simp [hstays]⟩
      · rw [(hafter e).1, (hafter e).2, htest, decide_eq_true horder]
        rfl
  rw [Bool.eq_iff_iff, hiff]
  constructor
  · rintro ⟨e, hmem, horder, htest, hstays⟩
    rw [find_order hnodup _ hmem horder]
    simp [htest, hstays]
  · cases hf : u.queue.find? fun c => decide (c.order = m.cue.order) with
    | none => exact nofun
    | some e =>
      intro htrue
      simp only [Bool.and_eq_true, Bool.not_eq_true'] at htrue
      obtain ⟨htest, hstays⟩ := htrue
      have horder : e.order = m.cue.order :=
        of_decide_eq_true (List.find?_some (p := fun c : Cue => decide (c.order = m.cue.order)) hf)
      exact ⟨e, List.mem_of_find?_eq_some hf, horder, htest, hstays⟩

end Settle

end Sys2Proof.Machine
end

section
/-! PROOFS. The steps of a run of cue operations: records removed, a cue handed over, records changed, a slot disowned. -/

namespace Sys2Proof.Machine

set_option Elab.async false

/-- The queue has the records replaced, and the message in flight, where its record is one of them and still there, is REPLACED. -/
theorem CueUnit.replace_eq (c : Cue) (u : CueUnit) :
    u.replace c = { u with
      queue := u.queue.map fun e => if sameCue e c then e.replaceBy c else e
      msg := u.msg.map fun m =>
        if m.condition ≠ .removed ∧ u.queue.any (fun e => sameCue e c && decide (e.order = m.cue.order)) = true then
          { m with condition := .replaced } else m } := by
  cases hmsg : u.msg with
  | none => simp [CueUnit.replace, inFlight, hmsg]
  | some m =>
    by_cases hremoved : m.condition = .removed
    · simp [CueUnit.replace, inFlight, hmsg, hremoved]
    · have htest : (u.queue.any fun e => sameCue e c && inFlight u e.order) =
          u.queue.any fun e => sameCue e c && decide (e.order = m.cue.order) := by
        simp only [inFlight, hmsg, hremoved, ne_eq, not_false_eq_true, decide_true, Bool.true_and, eq_comm]
      simp only [CueUnit.replace, htest, setCondition, hmsg, Option.map_some, hremoved, ne_eq, not_false_eq_true, true_and]
      split <;> rfl

/-- The slot and kind of one cue. -/
def isKey (i : Nat) (k : CueKind) (j : Nat) (l : CueKind) : Bool := decide (j = i ∧ l = k)

theorem keyed_isKey {i : Nat} {k : CueKind} {c : Cue} : c.keyed (isKey i k) = true ↔ c.slot = some i ∧ c.kind = k := by
  cases hs : c.slot with
  | none => simp [Cue.keyed, hs]
  | some j =>
    rw [keyed_of_slot hs, isKey, decide_eq_true_iff]
    simp

theorem sameCue_eq_keyed {i : Nat} {k : CueKind} {c : Cue} (hslot : c.slot = some i) (hkind : c.kind = k) (e : Cue) :
    sameCue e c = e.keyed (isKey i k) := by
  rw [Bool.eq_iff_iff, keyed_isKey, sameCue, hslot, hkind]
  cases e.slot <;> simp

/-- A cue made for one more slot and kind. -/
def withMade (new : Nat → CueKind → Option Cue) (i : Nat) (k : CueKind) (c : Cue) (j : Nat) (l : CueKind) : Option Cue :=
  if isKey i k j l then some c else new j l

theorem withMade_same (new : Nat → CueKind → Option Cue) (i : Nat) (k : CueKind) (c : Cue) : withMade new i k c i k = some c :=
  if_pos (decide_eq_true ⟨rfl, rfl⟩)

theorem madeFor_withMade (new : Nat → CueKind → Option Cue) (i : Nat) (k : CueKind) (c e : Cue) :
    e.madeFor (withMade new i k c) = if e.keyed (isKey i k) then some c else e.madeFor new := by
  cases hs : e.slot with
  | none => simp [Cue.madeFor, Cue.keyed, hs]
  | some j => rw [madeFor_of_slot hs, madeFor_of_slot hs, keyed_of_slot hs, withMade]

/-- Two runs that leave everything but queue, next order and message. -/
theorem cueFrame_trans {u v w : CueUnit} (h : v = { u with queue := v.queue, next := v.next, msg := v.msg })
    (h' : w = { v with queue := w.queue, next := w.next, msg := w.msg }) :
    w = { u with queue := w.queue, next := w.next, msg := w.msg } := by
  refine h'.trans ?_
  conv_lhs => rw [h]

section Steps

variable {dropped : Nat → CueKind → Bool} {new : Nat → CueKind → Option Cue} {gone : Nat → Bool} {joined : List Cue}
  {after : Cue → Cue} {u v : CueUnit}

theorem CuesSettle.joined_not {test : Nat → CueKind → Bool} (h : CuesSettle dropped new gone joined after u v)
    (hnew : ∀ i k, test i k = true → new i k = none) {c : Cue} (hc : c ∈ joined) : c.keyed test = false := by
  obtain ⟨i, hslot⟩ := Option.isSome_iff_exists.1 (h.slots c hc)
  have hmade := h.joined_made hc
  rw [madeFor_of_slot hslot] at hmade
  rw [keyed_of_slot hslot, Bool.eq_false_iff]
  intro ht
  rw [hnew i c.kind ht] at hmade
  cases hmade

/-- Records of slots and kinds for which no cue was made leave. -/
theorem CuesSettle.remove (h : CuesSettle dropped new gone joined after u v) {test : Nat → CueKind → Bool}
    (hnew : ∀ i k, test i k = true → new i k = none) :
    CuesSettle (fun i k => dropped i k || test i k) new gone joined after u (v.remove (Cue.keyed test)) := by
  have hor : ∀ c : Cue, c.keyed (fun i k => dropped i k || test i k) = (c.keyed dropped || c.keyed test) := by
    intro c
    cases hs : c.slot with
    | none => simp [Cue.keyed, hs]
    | some i => rw [keyed_of_slot hs, keyed_of_slot hs, keyed_of_slot hs]
  have heq := CueUnit.remove_eq (Cue.keyed test) v
  refine { h with frame := ?_, queue := ?_, next := ?_, msg := fun hnodup => ?_, cue := ?_, made := fun i k c hc => ?_ }
  · refine cueFrame_trans h.frame ?_
    rw [heq]
  · have hkeep : (fun c => !c.keyed test) ∘ after = fun c => !c.keyed test := funext fun c => by
      obtain ⟨hs, hk, -⟩ := h.keeps c
      simp only [Function.comp_apply, Cue.keyed, hs, hk]
    have hkeep' : (fun c => !c.keyed test) ∘ Cue.rewritten new = fun c => !c.keyed test := funext fun c => by
      obtain ⟨hs, hk, -⟩ := h.rewritten_key c
      simp only [Function.comp_apply, Cue.keyed, hs, hk]
    have hjoined : joined.filter (fun c => !c.keyed test) = joined :=
      List.filter_eq_self.2 fun c hc => by rw [h.joined_not hnew hc]; rfl
    rw [heq]
    simp only [hor]
    rw [h.queue, List.filter_map, hkeep, List.filter_append, hjoined, List.filter_map, hkeep', List.filter_filter]
    simp only [Bool.not_or, Bool.and_comm]
  · rw [heq]
    exact h.next
  · rw [heq]
    have hany := fun m => h.any_order hnodup (fun c hc => h.joined_not hnew hc) m
    rw [h.msg hnodup, Option.map_map]
    refine congrArg (fun f => u.msg.map f) (funext fun m => ?_)
    simp only [Function.comp_apply, hany, conditionAfter, hor]
    cases hf : u.queue.find? fun c => decide (c.order = m.cue.order) with
    | none => simp
    | some e =>
      by_cases hm : m.condition = .removed
      · simp [hm]
      · cases hd : e.keyed dropped <;> cases ht : e.keyed test <;> simp [hm, hd, ht]
  · rw [heq, ← h.cue, Option.map_map]
    refine congrArg (fun f => v.msg.map f) (funext fun m => ?_)
    simp only [Function.comp_apply]
    split <;> rfl
  · obtain ⟨hd, hs, hk⟩ := h.made i k c hc
    refine ⟨?_, hs, hk⟩
    rw [hd, Bool.false_or, Bool.eq_false_iff]
    intro ht
    rw [hnew i k ht] at hc
    cases hc

/-- A cue made for a slot and kind that lost no record and got none yet joins, or replaces what waits. -/
theorem CuesSettle.place (h : CuesSettle dropped new gone joined id u v) {i : Nat} {k : CueKind} {c : Cue}
    (hslot : c.slot = some i) (hkind : c.kind = k) (hdropped : dropped i k = false) (hnew : new i k = none)
    (hroom : (waitingIn i k u.queue).isNone = true → v.queue.length < 16) :
    CuesSettle dropped (withMade new i k { c with order := v.next }) gone
        (joined ++ if (waitingIn i k u.queue).isNone then [{ c with order := v.next }] else []) id u (v.placeCue c).1 ∧
      (v.placeCue c).2.lossy = false := by
  obtain ⟨c', hc'⟩ : ∃ c' : Cue, c' = { c with order := v.next } := ⟨_, rfl⟩
  rw [← hc']
  have hslot' : c'.slot = some i := by rw [hc']; exact hslot
  have hkind' : c'.kind = k := by rw [hc']; exact hkind
  have hsame := sameCue_eq_keyed hslot hkind
  have hjoined : ∀ e ∈ joined, e.keyed (isKey i k) = false := fun e he => h.joined_not (test := isKey i k) (fun j l hkey => by
    obtain ⟨rfl, rfl⟩ := of_decide_eq_true hkey
    exact hnew) he
  have hwaiting : waitingIn i k v.queue = waitingIn i k u.queue := by
    rw [h.waiting, hdropped, hnew]
    simp
  have hany : v.queue.any (fun e => sameCue e c) = (waitingIn i k u.queue).isSome := by
    rw [← hwaiting, Bool.eq_iff_iff, List.any_eq_true, waitingIn, List.find?_isSome]
    simp only [hsame, keyed_isKey, decide_eq_true_iff]
  have hmade : ∀ j l d, withMade new i k c' j l = some d → dropped j l = false ∧ d.slot = some j ∧ d.kind = l := by
    intro j l d hd
    unfold withMade at hd
    split at hd
    · rename_i hkey
      obtain ⟨rfl, rfl⟩ := of_decide_eq_true hkey
      obtain rfl := Option.some.inj hd
      exact ⟨hdropped, hslot', hkind'⟩
    · exact h.made j l d hd
  have hold : (u.queue.filter fun e => !e.keyed dropped).map (Cue.rewritten (withMade new i k c')) =
      ((u.queue.filter fun e => !e.keyed dropped).map (Cue.rewritten new)).map fun e =>
        if sameCue e c then e.replaceBy c else e := by
    rw [List.map_map]
    refine List.map_congr_left fun e _ => ?_
    obtain ⟨hs, hk, -⟩ := h.rewritten_key e
    have hkeyed : (e.rewritten new).keyed (isKey i k) = e.keyed (isKey i k) := by rw [Cue.keyed, Cue.keyed, hs, hk]
    simp only [Function.comp_apply, hsame, hkeyed]
    by_cases he : e.keyed (isKey i k) = true
    · obtain ⟨heslot, hekind⟩ := keyed_isKey.1 he
      have hnone : e.madeFor new = none := by rw [madeFor_of_slot heslot, hekind, hnew]
      simp only [Cue.rewritten, madeFor_withMade, he, hnone, ↓reduceIte]
      rw [hc']
      rfl
    · simp only [Cue.rewritten, madeFor_withMade, he, Bool.false_eq_true, ↓reduceIte]
  have hjoinedSame : (joined.map fun e => if sameCue e c then e.replaceBy c else e) = joined :=
    (List.map_congr_left (g := id) fun e he => by
      rw [hsame, hjoined e he]
      rfl).trans (List.map_id _)
  have hqueue : v.queue = (u.queue.filter fun e => !e.keyed dropped).map (Cue.rewritten new) ++ joined :=
    h.queue.trans (List.map_id _)
  have hnoKey : (waitingIn i k joined) = none := by rw [h.found, hnew, ite_self]
  have hother : ∀ {j l}, isKey i k j l = false → withMade new i k c' j l = new j l := fun hkey =>
    if_neg (by rw [hkey]; exact Bool.false_ne_true)
  have hisSome : ∀ e : Cue, (e.madeFor (withMade new i k c')).isSome = (e.keyed (isKey i k) || (e.madeFor new).isSome) := by
    intro e
    rw [madeFor_withMade]
    cases e.keyed (isKey i k) <;> rfl
  have hkeyFresh : ∀ e : Cue, e.keyed (isKey i k) = true → e.keyed dropped = false ∧ e.madeFor new = none := by
    intro e he
    obtain ⟨hs, hk⟩ := keyed_isKey.1 he
    rw [keyed_of_slot hs, madeFor_of_slot hs, hk]
    exact ⟨hdropped, hnew⟩
  cases hw : waitingIn i k u.queue with
  | some e₀ =>
    simp only [hw, Option.isSome_some] at hany
    have hplace : v.placeCue c = (v.replace c, .replaced) := by rw [CueUnit.placeCue, if_pos hany]
    have heq := CueUnit.replace_eq c v
    simp only [Option.isNone_some, Bool.false_eq_true, ↓reduceIte, List.append_nil, hplace]
    refine ⟨{ h with frame := ?_, queue := ?_, next := ?_, msg := fun hnodup => ?_, cue := ?_, found := fun j l => ?_, made := hmade },
      rfl⟩
    · refine cueFrame_trans h.frame ?_
      rw [heq]
    · rw [heq]
      show v.queue.map _ = _
      rw [hqueue, List.map_append, hjoinedSame, ← hold, List.map_id]
    · rw [heq]
      exact h.next
    · have hinFlight := fun m => h.any_order hnodup hjoined m
      rw [heq]
      show Option.map _ v.msg = _
      rw [h.msg hnodup, Option.map_map]
      refine congrArg (fun f => u.msg.map f) (funext fun m => ?_)
      simp only [Function.comp_apply, hsame, hinFlight, conditionAfter, hisSome]
      cases hf : u.queue.find? fun c => decide (c.order = m.cue.order) with
      | none => simp
      | some e =>
        by_cases hm : m.condition = .removed
        · simp [hm]
        · cases hkey : e.keyed (isKey i k) with
          | true =>
            obtain ⟨hd, hn⟩ := hkeyFresh e hkey
            simp [hm, hkey, hd, hn]
          | false => simp [hm, hkey]
    · rw [heq, ← h.cue, Option.map_map]
      refine congrArg (fun f => v.msg.map f) (funext fun m => ?_)
      simp only [Function.comp_apply]
      split <;> rfl
    · rw [h.found j l]
      cases hkey : isKey i k j l with
      | true =>
        obtain ⟨rfl, rfl⟩ := of_decide_eq_true hkey
        rw [hw]
        rfl
      | false => rw [hother hkey]
  | none =>
    simp only [hw, Option.isSome_none] at hany
    have hplace : v.placeCue c = (v.join c, .joined v.next) := by
      rw [CueUnit.placeCue, if_neg (by rw [hany]; exact Bool.false_ne_true), if_pos (hroom (by rw [hw]; rfl))]
    have hnot : ∀ e ∈ v.queue, sameCue e c = false := fun e he =>
      Bool.eq_false_iff.2 fun hs => Bool.false_ne_true (hany.symm.trans (List.any_eq_true.2 ⟨e, he, hs⟩))
    have hnotOld : ∀ e ∈ u.queue, e.keyed (isKey i k) = false := fun e he => by
      rw [Bool.eq_false_iff]
      intro hkey
      obtain ⟨hs, hk⟩ := keyed_isKey.1 hkey
      have hwaits := waitingIn_isSome he hs hk
      rw [hw] at hwaits
      cases hwaits
    simp only [Option.isNone_none, ↓reduceIte, hplace]
    refine ⟨⟨?_, ?_, ?_, ?_, fun hnodup => ?_, h.cue, fun j l => ?_, ?_, hmade, h.keeps⟩, rfl⟩
    · exact cueFrame_trans h.frame rfl
    · have hself : ((u.queue.filter fun e => !e.keyed dropped).map (Cue.rewritten new)).map (fun e =>
          if sameCue e c then e.replaceBy c else e) = (u.queue.filter fun e => !e.keyed dropped).map (Cue.rewritten new) :=
        (List.map_congr_left (g := id) fun e he => by
          rw [hnot e (by rw [hqueue]; exact List.mem_append.2 (.inl he))]
          rfl).trans (List.map_id _)
      rw [List.map_id, hold, hself, ← List.append_assoc, ← hqueue, hc']
      rfl
    · show v.next + 1 = _
      rw [h.next, List.length_append, List.length_singleton, BitVec.add_assoc, BitVec.ofNat_add]
      rfl
    · rw [List.map_append, h.orders, List.length_append, List.length_singleton, List.range_succ, List.map_append, hc',
        List.map_singleton, List.map_singleton, h.next]
    · show v.msg = _
      rw [h.msg hnodup]
      refine congrArg (fun f => u.msg.map f) (funext fun m => ?_)
      simp only [conditionAfter, hisSome]
      cases hf : u.queue.find? fun c => decide (c.order = m.cue.order) with
      | none => rfl
      | some e => simp only [hnotOld e (List.mem_of_find?_eq_some hf), Bool.false_or]
    · have hfound := h.found j l
      rw [waitingIn] at hfound
      rw [waitingIn, List.find?_append, hfound]
      cases hkey : isKey i k j l with
      | true =>
        obtain ⟨rfl, rfl⟩ := of_decide_eq_true hkey
        rw [hw, hnew, withMade_same]
        simp [hslot', hkind']
      | false =>
        rw [hother hkey]
        have hnotKey : ¬(c'.slot = some j ∧ c'.kind = l) := fun ⟨hj, hl⟩ => by
          rw [isKey, decide_eq_false_iff_not] at hkey
          exact hkey ⟨(Option.some.inj (hslot'.symm.trans hj)).symm, (hkind'.symm.trans hl).symm⟩
        rw [List.find?_singleton, decide_eq_false hnotKey]
        exact Option.or_none
    · intro e he
      rcases List.mem_append.1 he with hmem | hmem
      · exact h.slots e hmem
      · rw [List.mem_singleton.1 hmem, hslot']
        rfl

/-- The records are changed, each keeping slot, kind and order. -/
theorem CuesSettle.map (h : CuesSettle dropped new gone joined id u v) {f : Cue → Cue}
    (hf : ∀ c, (f c).slot = c.slot ∧ (f c).kind = c.kind ∧ (f c).order = c.order) :
    CuesSettle dropped new gone joined f u { v with queue := v.queue.map f } :=
  { h with
    frame := cueFrame_trans h.frame rfl
    queue := by
      show v.queue.map f = _
      rw [h.queue, List.map_id]
    keeps := hf }

/-- A slot is disowned: the outcome of a message of it is to be ignored. -/
theorem CuesSettle.disown (h : CuesSettle dropped new gone joined after u v) (i : Nat) :
    CuesSettle dropped new (fun j => gone j || decide (j = i)) joined after u
      { v with msg := v.msg.map fun m => if m.cue.slot = some i then { m with gone := true } else m } :=
  { h with
    frame := cueFrame_trans h.frame rfl
    msg := fun hnodup => by
      show Option.map _ v.msg = _
      rw [h.msg hnodup, Option.map_map]
      refine congrArg (fun f => u.msg.map f) (funext fun m => ?_)
      simp only [Function.comp_apply]
      cases hs : m.cue.slot with
      | none => simp
      | some j =>
        by_cases hj : j = i
        · subst hj
          simp
        · simp [hj]
    cue := by
      rw [← h.cue]
      show Option.map _ (Option.map _ v.msg) = _
      rw [Option.map_map]
      refine congrArg (fun f => v.msg.map f) (funext fun m => ?_)
      simp only [Function.comp_apply]
      split <;> rfl }

end Steps

end Sys2Proof.Machine
end

section
/-! PROOFS. The cues of a commit report, step by step (R116, R118, R120 to R124). -/

namespace Sys2Proof.Machine

set_option Elab.async false

/-! ## A report so far -/

/-- A test of one slot's kinds. -/
def onSlot (i : Nat) (test : CueKind → Bool) (j : Nat) (k : CueKind) : Bool := decide (j = i) && test k

/-- The cues made for one slot. -/
def madeOnSlot (i : Nat) (new : CueKind → Option Cue) (j : Nat) (k : CueKind) : Option Cue := if j = i then new k else none

/-- A value for each kind of slot cue. -/
def byKind {α : Type} (other cancellation platformChange delay boarding : α) : CueKind → α
  | .cancellation => cancellation
  | .platformChange => platformChange
  | .delay => delay
  | .boarding => boarding
  | _ => other

/-- A report of slot i that has come from `b` to `u`, by steps about cues. -/
structure Reporting (i : Nat) (dropped : CueKind → Bool) (new : CueKind → Option Cue) (joined : List Cue) (after : Cue → Cue)
    (b u : State) : Prop where
  only : CuesOnly b u
  att : u.att = b.att
  settles : CuesSettle (onSlot i dropped) (madeOnSlot i new) (fun _ => false) joined after b.cues u.cues

theorem keyed_onSlot (i : Nat) (test : CueKind → Bool) (c : Cue) : c.keyed (onSlot i test) = (ofSlot i c && test c.kind) := by
  cases hs : c.slot with
  | none => simp [Cue.keyed, ofSlot, hs]
  | some j => simp [keyed_of_slot hs, onSlot, ofSlot, hs]

theorem withMade_madeOnSlot (i : Nat) (new : CueKind → Option Cue) (k : CueKind) (c : Cue) :
    withMade (madeOnSlot i new) i k c = madeOnSlot i fun l => if l = k then some c else new l := by
  funext j l
  by_cases hj : j = i <;> by_cases hl : l = k <;> simp [withMade, isKey, madeOnSlot, hj, hl]

theorem makeCue_att {c : Cue} {s : State} (h : (s.cues.placeCue c).2.lossy = false) : (makeCue c s).att = s.att := by
  show (pendIf (s.cues.placeCue c).2.lossy .cueDropped { s with cues := (s.cues.placeCue c).1 }).att = s.att
  rw [h]
  rfl

section Steps

variable {i : Nat} {dropped dropped' : CueKind → Bool} {new new' : CueKind → Option Cue} {joined joined' : List Cue}
  {after : Cue → Cue} {b u : State}

theorem Reporting.refl (i : Nat) (b : State) : Reporting i (fun _ => false) (fun _ => none) [] id b b where
  only := .refl b
  att := rfl
  settles := by
    have hdropped : onSlot i (fun _ => false) = fun _ _ => false := funext fun j => funext fun k => Bool.and_false _
    have hnew : madeOnSlot i (fun _ => none) = fun _ _ => none := funext fun j => funext fun k => ite_self _
    rw [hdropped, hnew]
    exact .refl _

theorem Reporting.of_eq (h : Reporting i dropped new joined after b u) (hdropped : ∀ k, dropped k = dropped' k)
    (hnew : ∀ k, new k = new' k) (hjoined : joined = joined') : Reporting i dropped' new' joined' after b u := by
  obtain rfl : dropped = dropped' := funext hdropped
  obtain rfl : new = new' := funext hnew
  exact hjoined ▸ h

/-- Kinds for which no cue was made lose their records. -/
theorem Reporting.remove (h : Reporting i dropped new joined after b u) {test : Cue → Bool} (kinds : CueKind → Bool)
    (htest : ∀ c, test c = (ofSlot i c && kinds c.kind)) (hnew : ∀ k, kinds k = true → new k = none) :
    Reporting i (fun k => dropped k || kinds k) new joined after b (removeCues test u) where
  only := h.only.trans (removeCues_frame _ u)
  att := h.att
  settles := by
    have htest' : test = Cue.keyed (onSlot i kinds) := funext fun c => (htest c).trans (keyed_onSlot i kinds c).symm
    have hremoved := h.settles.remove (test := onSlot i kinds) fun j k hk => by
      obtain ⟨hj, hkind⟩ := Bool.and_eq_true_iff.1 hk
      exact (if_pos (of_decide_eq_true hj)).trans (hnew k hkind)
    have hdropped : (fun j k => onSlot i dropped j k || onSlot i kinds j k) = onSlot i fun k => dropped k || kinds k :=
      funext fun j => funext fun k => (Bool.and_or_distrib_left ..).symm
    rw [hdropped, ← htest'] at hremoved
    exact hremoved

/-- A kind that lost no record gets its cue. -/
theorem Reporting.make (h : Reporting i dropped new joined id b u) {c : Cue} {k : CueKind} (hslot : c.slot = some i)
    (hkind : c.kind = k) (hdropped : dropped k = false) (hnew : new k = none) (hroom : b.cues.queue.length + joined.length < 16) :
    Reporting i dropped (fun l => if l = k then some { c with order := u.cues.next } else new l)
      (joined ++ if (waiting i k b).isNone then [{ c with order := u.cues.next }] else []) id b (makeCue c u) := by
  obtain ⟨hsettles, hlossy⟩ := h.settles.place (i := i) (k := k) (c := c) hslot hkind
    (by rw [onSlot, hdropped, Bool.and_false]) ((if_pos rfl).trans hnew) (fun _ => Nat.lt_of_le_of_lt h.settles.length_le hroom)
  rw [withMade_madeOnSlot] at hsettles
  exact ⟨h.only.trans (makeCue_frame c u), (makeCue_att hlossy).trans h.att, hsettles⟩

end Steps

/-! ## What a report reads -/

section Reads

variable {i : Nat} {b u : State}

theorem CuesOnly.slotAt (h : CuesOnly b u) (j : Nat) : slotAt u j = slotAt b j := by
  obtain ⟨_, _, _, _, _, rfl⟩ := h
  rfl

theorem CuesOnly.params (h : CuesOnly b u) : u.params = b.params := by
  obtain ⟨_, _, _, _, _, rfl⟩ := h
  rfl

theorem CuesOnly.clock (h : CuesOnly b u) : u.clock = b.clock := by
  obtain ⟨_, _, _, _, _, rfl⟩ := h
  rfl

theorem CuesOnly.keOf (h : CuesOnly b u) (j : Nat) : keOf u j = keOf b j := by
  rw [Machine.keOf, Machine.keOf, h.slotAt]

theorem CuesOnly.windowOpen (h : CuesOnly b u) (j : Nat) (r : Record) : windowOpen u j r = windowOpen b j r := by
  rw [Machine.windowOpen, Machine.windowOpen, h.params, h.clock, h.keOf]

/-- The platform told reads the announced platform and the cue of the message in flight. -/
theorem told_eq_of {s t : State} (hannounced : (slotAt t i).announced = (slotAt s i).announced)
    (hcue : t.cues.msg.map (·.cue) = s.cues.msg.map (·.cue)) : told i t = told i s := by
  unfold told
  rw [hannounced]
  cases ht : t.cues.msg with
  | none =>
    cases hs : s.cues.msg with
    | none => rfl
    | some m => simp [ht, hs] at hcue
  | some m =>
    cases hs : s.cues.msg with
    | none => simp [ht, hs] at hcue
    | some m' =>
      simp only [ht, hs, Option.map_some, Option.some.injEq] at hcue
      simp only [hcue]

variable {dropped : CueKind → Bool} {new : CueKind → Option Cue} {joined : List Cue} {after : Cue → Cue}

theorem Reporting.told (h : Reporting i dropped new joined after b u) : told i u = told i b :=
  told_eq_of (by rw [h.only.slotAt]) h.settles.cue

end Reads

/-! ## The steps of the report -/

/-- A cue made where a condition holds. -/
def madeIf (b : Bool) (c : Cue) : Option Cue := if b then some c else none

/-- A cue made where a condition holds and none waits joins. -/
def joinIf (b : Bool) (old : Option Cue) (c : Cue) : List Cue := if b && old.isNone then [c] else []

section Conditional

variable {i : Nat} {dropped : CueKind → Bool} {new : CueKind → Option Cue} {joined : List Cue} {after : Cue → Cue} {b u : State}

theorem Reporting.removeIf (h : Reporting i dropped new joined after b u) (cond : Bool) {test : Cue → Bool} (kinds : CueKind → Bool)
    (htest : ∀ c, test c = (ofSlot i c && kinds c.kind)) (hnew : cond = true → ∀ k, kinds k = true → new k = none) :
    Reporting i (fun k => dropped k || cond && kinds k) new joined after b (if cond then removeCues test u else u) := by
  cases cond with
  | true => exact (h.remove kinds htest (hnew rfl)).of_eq (fun k => by rw [Bool.true_and]) (fun _ => rfl) rfl
  | false => exact h.of_eq (fun k => by rw [Bool.false_and, Bool.or_false]) (fun _ => rfl) rfl

theorem Reporting.makeIf (h : Reporting i dropped new joined id b u) (cond : Bool) {c : Cue} {k : CueKind} (hslot : c.slot = some i)
    (hkind : c.kind = k) (hdropped : cond = true → dropped k = false) (hnew : new k = none)
    (hroom : cond = true → b.cues.queue.length + joined.length < 16) :
    Reporting i dropped (fun l => if l = k then madeIf cond { c with order := u.cues.next } else new l)
      (joined ++ joinIf cond (waiting i k b) { c with order := u.cues.next }) id b (if cond then makeCue c u else u) := by
  cases cond with
  | true =>
    refine (h.make hslot hkind (hdropped rfl) hnew (hroom rfl)).of_eq (fun _ => rfl) (fun l => rfl) ?_
    rw [joinIf, Bool.true_and]
  | false =>
    refine h.of_eq (fun _ => rfl) (fun l => ?_) (List.append_nil _).symm
    by_cases hl : l = k
    · rw [if_pos hl, hl, hnew]
      rfl
    · rw [if_neg hl]

end Conditional

/-- What a report that is not quiet decides of a slot's cues. -/
structure Decisions where
  cancels : Bool
  cancelMade : Bool
  reinstates : Bool
  platformMade : Bool
  platformDropped : Bool
  delayMade : Bool
  delayDropped : Bool

/-- The decisions of a report, read from the state before its cue steps. -/
def decisions (i : Nat) (old : Slot) (r : Record) (b : State) : Decisions :=
  let cancels := isCompared old && !oldCancelled old && r.cancelled
  let moves := isCompared old && decide (oldPlatform old ≠ 0) && decide (oldPlatform old ≠ r.platform)
  let made := moves && decide (r.platform ≠ 0) && !r.cancelled && decide (r.platform ≠ told i b) && windowOpen b i r
  let delays := delayCueDue b.params b.clock r (keOf b i) (slotAt b i).lastCued
  { cancels := cancels
    cancelMade := cancels && windowOpen b i r
    reinstates := isCompared old && oldCancelled old && !r.cancelled
    platformMade := made
    platformDropped := moves && !made
    delayMade := !r.cancelled && delays
    delayDropped := !r.cancelled && !delays }

section Report

variable {i : Nat} {old : Slot} {r : Record} {b : State}

theorem decisions_cancelMade (h : (decisions i old r b).cancelMade = true) :
    (decisions i old r b).reinstates = false ∧ r.cancelled = true := by
  have h' : (isCompared old && !oldCancelled old && r.cancelled && windowOpen b i r) = true := h
  simp only [Bool.and_eq_true] at h'
  obtain ⟨⟨-, hcancelled⟩, -⟩ := h'
  refine ⟨?_, hcancelled⟩
  show (isCompared old && oldCancelled old && !r.cancelled) = false
  rw [hcancelled, Bool.not_true, Bool.and_false]

/-- Whoever is not cancelled now does not cancel. -/
theorem decisions_cancels_of_not (h : r.cancelled = false) :
    (decisions i old r b).cancels = false ∧ (decisions i old r b).cancelMade = false := by
  have hcancels : (isCompared old && !oldCancelled old && r.cancelled) = false := by rw [h, Bool.and_false]
  refine ⟨hcancels, ?_⟩
  show (isCompared old && !oldCancelled old && r.cancelled && windowOpen b i r) = false
  rw [hcancels, Bool.false_and]

theorem decisions_platformMade (h : (decisions i old r b).platformMade = true) :
    r.cancelled = false ∧ (decisions i old r b).platformDropped = false := by
  have hmade := h
  unfold decisions at h
  simp only [Bool.and_eq_true, Bool.not_eq_true'] at h
  obtain ⟨⟨⟨-, hcancelled⟩, -⟩, -⟩ := h
  refine ⟨hcancelled, ?_⟩
  show (_ && !(decisions i old r b).platformMade) = false
  rw [hmade, Bool.not_true, Bool.and_false]

theorem decisions_delayMade (h : (decisions i old r b).delayMade = true) :
    r.cancelled = false ∧ (decisions i old r b).delayDropped = false := by
  have h' : (!r.cancelled && delayCueDue b.params b.clock r (keOf b i) (slotAt b i).lastCued) = true := h
  rw [Bool.and_eq_true, Bool.not_eq_true'] at h'
  obtain ⟨hcancelled, hdue⟩ := h'
  refine ⟨hcancelled, ?_⟩
  show (!r.cancelled && !delayCueDue b.params b.clock r (keOf b i) (slotAt b i).lastCued) = false
  rw [hdue, Bool.not_true, Bool.and_false]

/-- A step that makes a cue, removes one, or does neither. -/
theorem ite_made {made dropped : Bool} (h : made = true → dropped = false) (f : State → State) (u v : State) :
    (if made then f u else if dropped then v else u) = if made then f (if dropped then v else u) else if dropped then v else u := by
  cases made with
  | true =>
    rw [h rfl]
    rfl
  | false => rfl

/-- The kinds a cancellation removes (R121). -/
def isCourseCue (i : Nat) (c : Cue) : Bool := ofKind .platformChange i c || ofKind .delay i c || ofKind .boarding i c

theorem reportCancellation_eq (d : Decisions) (hd : d = decisions i old r b) :
    let w := if d.reinstates then removeCues (ofKind .cancellation i) b else b
    let w' := if d.cancels then removeCues (isCourseCue i) w else w
    reportCancellation i old r b = if d.cancelMade then makeCue (slotCue .cancellation i r b.params.repeats) w' else w' := by
  have hcancel : cancelCues i r b = if windowOpen b i r then
      makeCue (slotCue .cancellation i r b.params.repeats) (removeCues (isCourseCue i) b) else removeCues (isCourseCue i) b := by
    have hremoved := removeCues_frame (isCourseCue i) b
    have hunfold : cancelCues i r b = if windowOpen (removeCues (isCourseCue i) b) i r then
        makeCue (slotCue .cancellation i r (removeCues (isCourseCue i) b).params.repeats) (removeCues (isCourseCue i) b)
        else removeCues (isCourseCue i) b := rfl
    rw [hunfold, hremoved.windowOpen, hremoved.params]
  intro w w'
  rw [reportCancellation, hcancel]
  simp only [w, w', hd]
  by_cases hcompared : isCompared old = true
  · cases hcancelled : r.cancelled with
    | true => cases hold : oldCancelled old <;> simp [decisions, hcompared, hold, hcancelled]
    | false => cases hold : oldCancelled old <;> simp [decisions, hcompared, hold, hcancelled, reinstate]
  · simp [decisions, hcompared]

theorem platformCue_order {u : State} (htold : told i u = told i b) (hparams : u.params = b.params) (order : BitVec 32) :
    ({ platformCue u i r with order := order } : Cue) =
      madeCue .platformChange i r (told i b) 0 b.params.repeats order := by
  rw [platformCue, told_eq, htold, hparams]
  rfl

/-- A platform change or withdrawal, by which a cue is made or the one that waits goes. -/
def movesFrom (old : Slot) (r : Record) : Bool :=
  isCompared old && decide (oldPlatform old ≠ 0) && decide (oldPlatform old ≠ r.platform)

theorem decisions_platform (i : Nat) (old : Slot) (r : Record) (b : State) :
    (decisions i old r b).platformMade = (movesFrom old r && !decide (r.platform = 0) &&
        !decide (r.cancelled = true ∨ r.platform = told i b ∨ windowOpen b i r = false)) ∧
      (decisions i old r b).platformDropped = (movesFrom old r && !(decisions i old r b).platformMade) := by
  refine ⟨?_, rfl⟩
  have hmade : (decisions i old r b).platformMade = (movesFrom old r && decide (r.platform ≠ 0) && !r.cancelled &&
    decide (r.platform ≠ told i b) && windowOpen b i r) := rfl
  rw [hmade, Bool.eq_iff_iff]
  simp only [Bool.and_eq_true, Bool.not_eq_true', decide_eq_true_iff, decide_eq_false_iff_not, not_or, Bool.not_eq_true,
    Bool.not_eq_false, ne_eq, and_assoc]

theorem reportPlatformCue_eq {u : State} (h : CuesOnly b u) (htold : told i u = told i b) (d : Decisions)
    (hd : d = decisions i old r b) : reportPlatformCue i old r u =
      if d.platformMade then makeCue (platformCue u i r) u
      else if d.platformDropped then removeCues (ofKind .platformChange i) u
      else u := by
  obtain ⟨hmade, hdropped⟩ := decisions_platform i old r b
  rw [reportPlatformCue, changeCue, told_eq, htold, h.windowOpen, hd, hdropped, hmade]
  by_cases hmoves : isCompared old = true ∧ oldPlatform old ≠ 0 ∧ oldPlatform old ≠ r.platform
  · have hmoves' : movesFrom old r = true := by
      rw [movesFrom, Bool.and_assoc, ← Bool.decide_and, ← Bool.decide_coe (isCompared old), ← Bool.decide_and]
      exact decide_eq_true hmoves
    rw [if_pos hmoves, hmoves']
    by_cases hzero : r.platform = 0
    · simp [hzero]
    · by_cases hback : r.cancelled = true ∨ r.platform = told i b ∨ windowOpen b i r = false
      · rw [if_neg hzero, if_pos hback, decide_eq_true hback]
        simp
      · rw [if_neg hzero, if_neg hback, decide_eq_false hzero, decide_eq_false hback]
        rfl
  · have hmoves' : movesFrom old r = false := by
      rw [movesFrom, Bool.and_assoc, ← Bool.decide_and, ← Bool.decide_coe (isCompared old), ← Bool.decide_and]
      exact decide_eq_false hmoves
    rw [if_neg hmoves, hmoves']
    rfl

theorem delayRule_eq {u : State} (h : CuesOnly b u) (d : Decisions) (hd : d = decisions i old r b) : delayRule i r u =
    if d.delayMade then makeCue { slotCue .delay i r 0 with delay := r.delay } u
    else if d.delayDropped then removeCues (ofKind .delay i) u
    else u := by
  rw [delayRule, h.params, h.clock, h.keOf, h.slotAt, hd]
  cases hcancelled : r.cancelled with
  | true => simp [decisions, hcancelled]
  | false =>
    cases hdue : delayCueDue b.params b.clock r (keOf b i) (slotAt b i).lastCued <;> simp [decisions, hcancelled, hdue]

end Report

end Sys2Proof.Machine
end

section
/-! PROOFS. The cues of a commit report: its steps one after another. -/

namespace Sys2Proof.Machine

set_option Elab.async false

/-! ## The window and the state reached (R28, R72) -/

/-- In an open window the record is announced, and its departure is neither departing nor gone. -/
theorem announceOpen_spec {q : Params} {c : Clock} {r : Record} {ke : Int} (h : announceOpen q c r ke = true) :
    r.announce = true ∧ stateFor q c r.cancelled ke ≠ .expired ∧ stateFor q c r.cancelled ke ≠ .departing := by
  simp only [announceOpen, Bool.and_eq_true, decide_eq_true_iff] at h
  obtain ⟨⟨⟨hannounce, hset⟩, hopen⟩, -⟩ := h
  have hremaining : 0 < 60 * ke - (c.t : Int) := hopen
  have hminute : (c.t / 60 : Nat) < ke := by omega
  have hlate : ¬remaining ke c ≤ -(q.dwell : Int) := by
    unfold remaining
    omega
  have hahead : ¬countdown ke c ≤ 0 := by
    unfold countdown Clock.minute
    omega
  have hheld : ¬(c.isSet = true ∧ ke + q.hold ≤ c.minute) := by
    unfold Clock.minute
    omega
  refine ⟨hannounce, ?_⟩
  rw [stateFor, if_neg hheld, if_neg (not_not_intro hset), if_neg hlate, if_neg hahead]
  split
  · exact ⟨nofun, nofun⟩
  · split <;> exact ⟨nofun, nofun⟩

section Report

variable {i : Nat} {old : Slot} {r : Record} {b : State}

theorem madeIf_congr {cond : Bool} {c c' : Cue} (h : cond = true → c = c') : madeIf cond c = madeIf cond c' := by
  cases cond with
  | true => rw [h rfl]
  | false => rfl

theorem joinIf_congr {cond : Bool} {old : Option Cue} {c c' : Cue} (h : cond = true → c = c') :
    joinIf cond old c = joinIf cond old c' := by
  cases cond with
  | true => rw [h rfl]
  | false => rfl

theorem joinIf_length (cond : Bool) (old : Option Cue) (c : Cue) :
    (joinIf cond old c).length = if cond && old.isNone then 1 else 0 := by
  rw [joinIf]
  split <;> rfl

theorem ofKind_eq (k : CueKind) (i : Nat) (c : Cue) : ofKind k i c = (ofSlot i c && decide (c.kind = k)) := rfl

/-- The cues the three kinds of a report can make. -/
def cancellationMade (i : Nat) (r : Record) (b : State) : Cue := madeCue .cancellation i r 0 0 b.params.repeats b.cues.next

def platformMade (i : Nat) (r : Record) (b : State) : Cue :=
  madeCue .platformChange i r (told i b) 0 b.params.repeats b.cues.next

def delayMade (i : Nat) (r : Record) (d : Decisions) (b : State) : Cue :=
  madeCue .delay i r 0 r.delay 0 (b.cues.next + fresh (d.platformMade && (waiting i .platformChange b).isNone))

/-- After the cancellation kind (R121). -/
theorem reportCancellation_reporting (hroom : b.cues.queue.length + 2 ≤ 16) (d : Decisions) (hd : d = decisions i old r b) :
    Reporting i (byKind false d.reinstates d.cancels d.cancels d.cancels)
      (byKind none (madeIf d.cancelMade (cancellationMade i r b)) none none none)
      (joinIf d.cancelMade (waiting i .cancellation b) (cancellationMade i r b)) id b
      (reportCancellation i old r b) := by
  have hreinstated := (Reporting.refl i b).removeIf d.reinstates (test := ofKind .cancellation i) (fun k => decide (k = .cancellation))
    (fun c => rfl) (fun _ _ _ => rfl)
  have hremoved := hreinstated.removeIf d.cancels (test := isCourseCue i)
    (fun k => decide (k = .platformChange) || decide (k = .delay) || decide (k = .boarding))
    (fun c => by simp only [isCourseCue, ofKind_eq, Bool.and_or_distrib_left]) (fun _ _ _ => rfl)
  have hmade := hremoved.makeIf d.cancelMade (c := slotCue .cancellation i r b.params.repeats) (k := .cancellation) rfl rfl
    (fun hc => by
      obtain ⟨hreinstates, -⟩ := decisions_cancelMade (hd ▸ hc)
      simp [hd ▸ hreinstates]) rfl (fun _ => by
      rw [List.length_nil]
      omega)
  rw [reportCancellation_eq d hd]
  have horder := hremoved.settles.next
  rw [List.length_nil, BitVec.add_zero] at horder
  refine hmade.of_eq (fun k => ?_) (fun k => ?_) ?_
  · cases k <;> simp [byKind]
  · rw [horder]
    cases k <;> rfl
  · rw [horder]
    rfl

variable {u : State}

/-- After the platform kind (R118, R120). -/
theorem reportPlatformCue_reporting (hroom : b.cues.queue.length + 2 ≤ 16) (d : Decisions) (hd : d = decisions i old r b)
    (h : Reporting i (byKind false d.reinstates d.cancels d.cancels d.cancels)
      (byKind none (madeIf d.cancelMade (cancellationMade i r b)) none none none)
      (joinIf d.cancelMade (waiting i .cancellation b) (cancellationMade i r b)) id b u) :
    Reporting i (byKind false d.reinstates (d.cancels || d.platformDropped) d.cancels d.cancels)
      (byKind none (madeIf d.cancelMade (cancellationMade i r b)) (madeIf d.platformMade (platformMade i r b)) none none)
      (joinIf d.cancelMade (waiting i .cancellation b) (cancellationMade i r b) ++
        joinIf d.platformMade (waiting i .platformChange b) (platformMade i r b)) id b
      (reportPlatformCue i old r u) := by
  have hexclusive : d.platformMade = true → d.cancels = false ∧ d.cancelMade = false ∧ d.platformDropped = false := fun hmade => by
    obtain ⟨hcancelled, hdropped⟩ := decisions_platformMade (hd ▸ hmade)
    obtain ⟨hcancels, hmade'⟩ := decisions_cancels_of_not (i := i) (old := old) (b := b) hcancelled
    exact ⟨hd ▸ hcancels, hd ▸ hmade', hd ▸ hdropped⟩
  have hremoved := h.removeIf d.platformDropped (test := ofKind .platformChange i) (fun k => decide (k = .platformChange))
    (fun c => rfl) (fun _ k hk => by rw [of_decide_eq_true hk]; rfl)
  have horder : d.platformMade = true →
      (if d.platformDropped then removeCues (ofKind .platformChange i) u else u).cues.next = b.cues.next := fun hmade => by
    obtain ⟨-, hcancel, -⟩ := hexclusive hmade
    rw [hremoved.settles.next, joinIf_length, hcancel]
    exact BitVec.add_zero _
  have hcue := fun order => platformCue_order (i := i) (r := r) h.told h.only.params order
  have hmade := hremoved.makeIf d.platformMade (c := platformCue u i r) (k := .platformChange) rfl rfl
    (fun hc => by
      obtain ⟨hcancels, -, hdropped⟩ := hexclusive hc
      simp [byKind, hcancels, hdropped]) rfl (fun hc => by
      obtain ⟨-, hcancel, -⟩ := hexclusive hc
      rw [joinIf_length, hcancel]
      simp only [Bool.false_and, Bool.false_eq_true, ↓reduceIte]
      omega)
  rw [reportPlatformCue_eq h.only h.told d hd, ite_made (f := makeCue (platformCue u i r)) fun hc => (hexclusive hc).2.2]
  refine hmade.of_eq (fun k => ?_) (fun k => ?_) ?_
  · cases k <;> simp [byKind]
  · cases k with
    | platformChange => exact madeIf_congr fun hc => (hcue _).trans (by rw [horder hc]; rfl)
    | cancellation | delay | boarding | notice | general | emergency => rfl
  · exact congrArg _ (joinIf_congr fun hc => (hcue _).trans (by rw [horder hc]; rfl))

/-- After the delay rule (R122). -/
theorem delayRule_reporting (hroom : b.cues.queue.length + 2 ≤ 16) (d : Decisions) (hd : d = decisions i old r b)
    (h : Reporting i (byKind false d.reinstates (d.cancels || d.platformDropped) d.cancels d.cancels)
      (byKind none (madeIf d.cancelMade (cancellationMade i r b)) (madeIf d.platformMade (platformMade i r b)) none none)
      (joinIf d.cancelMade (waiting i .cancellation b) (cancellationMade i r b) ++
        joinIf d.platformMade (waiting i .platformChange b) (platformMade i r b)) id b u) :
    Reporting i (byKind false d.reinstates (d.cancels || d.platformDropped) (d.cancels || d.delayDropped) d.cancels)
      (byKind none (madeIf d.cancelMade (cancellationMade i r b)) (madeIf d.platformMade (platformMade i r b))
        (madeIf d.delayMade (delayMade i r d b)) none)
      ((joinIf d.cancelMade (waiting i .cancellation b) (cancellationMade i r b) ++
        joinIf d.platformMade (waiting i .platformChange b) (platformMade i r b)) ++
        joinIf d.delayMade (waiting i .delay b) (delayMade i r d b)) id b
      (delayRule i r u) := by
  have hexclusive : d.delayMade = true → d.cancels = false ∧ d.cancelMade = false ∧ d.delayDropped = false := fun hmade => by
    obtain ⟨hcancelled, hdropped⟩ := decisions_delayMade (old := old) (hd ▸ hmade)
    obtain ⟨hcancels, hmade'⟩ := decisions_cancels_of_not (i := i) (old := old) (b := b) hcancelled
    exact ⟨hd ▸ hcancels, hd ▸ hmade', hd ▸ hdropped⟩
  have hremoved := h.removeIf d.delayDropped (test := ofKind .delay i) (fun k => decide (k = .delay))
    (fun c => rfl) (fun _ k hk => by rw [of_decide_eq_true hk]; rfl)
  have hlength : d.delayMade = true → (joinIf d.cancelMade (waiting i .cancellation b) (cancellationMade i r b) ++
      joinIf d.platformMade (waiting i .platformChange b) (platformMade i r b)).length =
        if d.platformMade && (waiting i .platformChange b).isNone then 1 else 0 := fun hmade => by
    obtain ⟨-, hcancel, -⟩ := hexclusive hmade
    rw [List.length_append, joinIf_length, joinIf_length, hcancel]
    simp
  have horder : d.delayMade = true →
      (if d.delayDropped then removeCues (ofKind .delay i) u else u).cues.next =
        b.cues.next + fresh (d.platformMade && (waiting i .platformChange b).isNone) := fun hmade => by
    rw [hremoved.settles.next, hlength hmade, fresh]
    split <;> rfl
  have hmade := hremoved.makeIf d.delayMade (c := { slotCue .delay i r 0 with delay := r.delay }) (k := .delay) rfl rfl
    (fun hc => by
      obtain ⟨hcancels, -, hdropped⟩ := hexclusive hc
      simp [byKind, hcancels, hdropped]) rfl (fun hc => by
      rw [hlength hc]
      split <;> omega)
  rw [delayRule_eq (old := old) h.only d hd,
    ite_made (f := makeCue { slotCue .delay i r 0 with delay := r.delay }) fun hc => (hexclusive hc).2.2]
  refine hmade.of_eq (fun k => ?_) (fun k => ?_) ?_
  · cases k <;> simp [byKind]
  · cases k with
    | delay => exact madeIf_congr fun hc => by rw [horder hc]; rfl
    | cancellation | platformChange | boarding | notice | general | emergency => rfl
  · exact congrArg _ (joinIf_congr fun hc => by rw [horder hc]; rfl)

/-- After the state reached (R124). -/
theorem commitCourse_reporting {state : SlotState} (hstate : (slotAt b i).state = state) {reinstated platform delay boarding : Bool}
    {cancellation' platform' delay' : Option Cue} {joined : List Cue}
    (hdeparting : state = .departing → delay' = none)
    (h : Reporting i (byKind false reinstated platform delay boarding)
      (byKind none cancellation' platform' delay' none) joined id b u) :
    Reporting i (byKind false reinstated platform (delay || decide (state = .departing))
        (boarding || decide (state = .scheduled ∨ state = .departing)))
      (byKind none cancellation' platform' delay' none) joined id b (commitCourse i u) := by
  have hat : (slotAt u i).state = state := by rw [h.only.slotAt, hstate]
  rw [commitCourse, hat]
  cases hs : state with
  | scheduled =>
    refine (h.remove (test := ofKind .boarding i) (fun k => decide (k = .boarding)) (fun c => rfl)
      fun k hk => by rw [of_decide_eq_true hk]; rfl).of_eq (fun k => ?_) (fun _ => rfl) rfl
    cases k <;> simp [byKind]
  | departing =>
    refine (h.remove (test := fun c => ofKind .boarding i c || ofKind .delay i c)
      (fun k => decide (k = .boarding) || decide (k = .delay))
      (fun c => by simp only [ofKind_eq, Bool.and_or_distrib_left]) fun k hk => ?_).of_eq (fun k => ?_) (fun _ => rfl) rfl
    · rw [Bool.or_eq_true, decide_eq_true_iff, decide_eq_true_iff] at hk
      obtain rfl | rfl := hk
      · rfl
      · exact hdeparting hs
    · cases k <;> simp [byKind]
  | vacant | boarding | cancelled | expired =>
    refine h.of_eq (fun k => ?_) (fun _ => rfl) rfl
    cases k <;> simp [byKind]

end Report

end Sys2Proof.Machine
end

section
/-! PROOFS. The cues of a commit report: the refresh, an expiry, and what the whole report comes to (R116, R123, R126). -/

namespace Sys2Proof.Machine

set_option Elab.async false

section Ends

variable {i : Nat} {r : Record} {dropped : CueKind → Bool} {new : CueKind → Option Cue} {gone : Nat → Bool} {joined : List Cue}
  {after : Cue → Cue} {c : CueUnit} {u : State}

theorem onSlot_or (i : Nat) (f g : CueKind → Bool) :
    (fun j k => onSlot i f j k || onSlot i g j k) = onSlot i fun k => f k || g k :=
  funext fun _ => funext fun _ => (Bool.and_or_distrib_left ..).symm

theorem keyed_all (i : Nat) : Cue.keyed (onSlot i fun _ => true) = ofSlot i :=
  funext fun c => (keyed_onSlot i _ c).trans (Bool.and_true _)

/-- Every cue of a slot for which none was made leaves. -/
theorem CuesSettle.removeSlot (h : CuesSettle (onSlot i dropped) (madeOnSlot i new) gone joined after c u.cues)
    (hnone : ∀ k, new k = none) :
    CuesSettle (onSlot i fun k => dropped k || true) (madeOnSlot i new) gone joined after c (u.cues.remove (ofSlot i)) := by
  have hremoved := h.remove (test := onSlot i fun _ => true) fun j k _ => by
    rw [madeOnSlot, hnone, ite_self]
  rw [onSlot_or, keyed_all] at hremoved
  exact hremoved

/-- The parameters of the slot's cues refreshed (R123). -/
def refreshed (i : Nat) (r : Record) (e : Cue) : Cue := if ofSlot i e then e.refresh r else e

/-- After announce off, or the refresh (R123). -/
theorem refreshCues_settles (h : CuesSettle (onSlot i dropped) (madeOnSlot i new) gone joined id c u.cues)
    (hnone : r.announce = false → ∀ k, new k = none) :
    CuesSettle (onSlot i fun k => dropped k || !r.announce) (madeOnSlot i new) gone joined
      (if r.announce then refreshed i r else id) c (refreshCues i r u).cues := by
  cases hannounce : r.announce with
  | false =>
    rw [refreshCues, if_pos hannounce]
    exact h.removeSlot (hnone hannounce)
  | true =>
    have hmap := h.map (f := refreshed i r) fun e => by
      unfold refreshed
      split <;> exact ⟨rfl, rfl, rfl⟩
    have hdropped : (fun k => dropped k || !true) = dropped := funext fun k => Bool.or_false _
    have hrefresh : refreshCues i r u = { u with cues := { u.cues with queue := u.cues.queue.map (refreshed i r) } } :=
      if_neg (by rw [hannounce]; exact Bool.noConfusion)
    rw [hrefresh, hdropped]
    exact hmap

/-- After an expiry (R126). -/
theorem forgetExpired_settles {state : SlotState} (hstate : (slotAt u i).state = state)
    (h : CuesSettle (onSlot i dropped) (madeOnSlot i new) (fun _ => false) joined after c u.cues)
    (hnone : state = .expired → ∀ k, new k = none) :
    CuesSettle (onSlot i fun k => dropped k || decide (state = .expired)) (madeOnSlot i new)
      (fun j => decide (state = .expired) && decide (j = i)) joined after c (forgetExpired i u).cues := by
  by_cases hexpired : state = .expired
  · have hforget : (forgetExpired i u).cues = { u.cues.remove (ofSlot i) with
        msg := (u.cues.remove (ofSlot i)).msg.map fun m => if m.cue.slot = some i then { m with gone := true } else m } := by
      rw [forgetExpired, if_pos (hstate.trans hexpired)]
      rfl
    have hgone := (h.removeSlot (hnone hexpired)).disown i
    rw [hforget]
    simp only [hexpired, decide_true, Bool.true_and]
    simp only [Bool.false_or] at hgone
    exact hgone
  · rw [forgetExpired, if_neg fun he => hexpired (hstate.symm.trans he)]
    simp only [hexpired, decide_false, Bool.or_false, Bool.false_and]
    exact h

end Ends

/-! ## The whole report -/

section Report

variable {s : State} {i : Nat}

/-- The state in which the cue steps of a report begin: the record taken and placed, the boards' share done. -/
def reportBase (i : Nat) (s : State) : State :=
  reportBoards i (slotAt s i) (recordOf (slotAt s i).staging) (takenPlaced i s)

theorem reportBase_frame (i : Nat) (s : State) : ∃ highlight, (reportBase i s).params = s.params ∧ (reportBase i s).clock = s.clock ∧
    (reportBase i s).cues = s.cues ∧ (reportBase i s).att = s.att ∧
    (reportBase i s).slots = (takenPlaced i s).slots.set i { slotAt (takenPlaced i s) i with highlight := highlight } := by
  have hboards := reportBoards_eq i (slotAt s i) (recordOf (slotAt s i).staging) (takenPlaced i s)
    (d := changeOf false i (recordOf (slotAt s i).staging) s) (changeOf_compared ..) rfl rfl
  rw [reportBase, hboards, takenPlaced_frame]
  exact ⟨_, rfl, rfl, rfl, rfl, rfl⟩

theorem reportBase_slot (hi : i < s.slots.length) (hroll : s.clock.roll < 1440) :
    let r := stagedRecord (slotAt s i).staging
    let k := derivedKeys s.clock.roll r
    (slotAt (reportBase i s) i).state = tableState s.params s.clock r.cancelled k.ke ∧ keOf (reportBase i s) i = k.ke ∧
      (slotAt (reportBase i s) i).lastCued = (slotAt s i).lastCued ∧
      (slotAt (reportBase i s) i).announced = (slotAt s i).announced := by
  obtain ⟨highlight, -, -, -, -, hslots⟩ := reportBase_frame i s
  have hlength : i < (takenPlaced i s).slots.length := by
    rw [takenPlaced_frame]
    exact (List.length_set ..).symm ▸ hi
  have hslot : slotAt (reportBase i s) i = { slotAt (takenPlaced i s) i with highlight := highlight } := by
    rw [slotAt, hslots]
    simp [hlength]
  rw [slotAt_takenPlaced hi, take_eq hroll] at hslot
  intro r k
  rw [keOf, hslot]
  exact ⟨rfl, rfl, rfl, rfl⟩

theorem windowOpen_reportBase (hi : i < s.slots.length) (hroll : s.clock.roll < 1440) (r : Record) :
    windowOpen (reportBase i s) i r =
      windowAt s.params s.clock r (derivedKeys s.clock.roll (stagedRecord (slotAt s i).staging)).ke := by
  obtain ⟨-, hparams, hclock, -⟩ := reportBase_frame i s
  obtain ⟨-, hke, -⟩ := reportBase_slot hi hroll
  rw [windowOpen, hparams, hclock, hke, announceOpen_eq]

theorem told_reportBase (hi : i < s.slots.length) (hroll : s.clock.roll < 1440) : told i (reportBase i s) = told i s := by
  obtain ⟨-, -, -, hcues, -⟩ := reportBase_frame i s
  obtain ⟨-, -, -, hannounced⟩ := reportBase_slot hi hroll
  exact told_eq_of hannounced (by rw [hcues])

/-- What the report of a record decides, in the words of the specification (R72, R116 to R122). -/
theorem decisions_reportBase (hi : i < s.slots.length) (hroll : s.clock.roll < 1440) :
    let r := stagedRecord (slotAt s i).staging
    let open' := windowAt s.params s.clock r (derivedKeys s.clock.roll r).ke
    let d := changeOf false i r s
    let changes := d.moves && !r.cancelled && decide (r.platform ≠ told i s) && open'
    let delays := !r.cancelled && open' && decide (s.params.threshold ≤ r.delay) &&
      match (slotAt s i).lastCued with
      | none => true
      | some l => decide (s.params.step ≤ (r.delay - l) + (l - r.delay))
    decisions i (slotAt s i) (recordOf (slotAt s i).staging) (reportBase i s) =
      { cancels := d.cancels, cancelMade := d.cancels && open', reinstates := d.reinstates, platformMade := changes
        platformDropped := d.compared && decide (d.old ≠ 0 ∧ d.old ≠ d.new) && !changes
        delayMade := delays, delayDropped := !r.cancelled && !delays } := by
  intro r open' d changes delays
  obtain ⟨-, hparams, hclock, -⟩ := reportBase_frame i s
  obtain ⟨-, hke, hlast, -⟩ := reportBase_slot hi hroll
  have hke' : keOf (reportBase i s) i = (derivedKeys s.clock.roll r).ke := hke
  have hr : recordOf (slotAt s i).staging = r := (stagedRecord_eq _).symm
  have hcompared : isCompared (slotAt s i) = d.compared := (changeOf_compared false r).symm
  have hopen : windowOpen (reportBase i s) i r = open' := windowOpen_reportBase hi hroll r
  have hdue : (!r.cancelled && delayCueDue s.params s.clock r (derivedKeys s.clock.roll r).ke (slotAt s i).lastCued) = delays := by
    simp only [delays, open', delayCueDue, announceOpen_eq, Bool.and_assoc]
    cases (slotAt s i).lastCued <;> rfl
  have hdue' : (!r.cancelled && !delayCueDue s.params s.clock r (derivedKeys s.clock.roll r).ke (slotAt s i).lastCued) =
      (!r.cancelled && !delays) := by
    rw [← hdue]
    cases r.cancelled <;> simp
  have hmoves : (d.compared && decide (oldPlatform (slotAt s i) ≠ 0) && decide (oldPlatform (slotAt s i) ≠ r.platform)) =
      (d.compared && decide (d.old ≠ 0 ∧ d.old ≠ d.new)) := by
    rw [Bool.decide_and, Bool.and_assoc]
    rfl
  have hchanges : (d.compared && decide (d.old ≠ 0 ∧ d.old ≠ d.new) && decide (r.platform ≠ 0) && !r.cancelled &&
      decide (r.platform ≠ told i s) && open') = changes := by
    have hmove : (d.compared && decide (d.old ≠ 0 ∧ d.old ≠ d.new) && decide (r.platform ≠ 0)) = d.moves := by
      rw [Bool.eq_iff_iff, moves_iff]
      simp only [Bool.and_eq_true, decide_eq_true_iff]
      have hnew : d.new = r.platform := rfl
      rw [hnew]
      tauto
    rw [hmove]
  have hcancels : (d.compared && !oldCancelled (slotAt s i) && r.cancelled) = d.cancels := rfl
  have hreinstates : (d.compared && oldCancelled (slotAt s i) && !r.cancelled) = d.reinstates := rfl
  rw [hr]
  unfold decisions
  simp only [hcompared, hopen, told_reportBase hi hroll, hparams, hclock, hke', hlast, hdue', hdue, hmoves, hchanges, hcancels,
    hreinstates]

end Report

end Sys2Proof.Machine
end

section
/-! PROOFS. The cues of a commit that is not quiet, with room for those it makes (R116, R118 to R124, R126). -/

namespace Sys2Proof.Machine

set_option Elab.async false

/-- The kinds of slot cues a report removes, by its decisions, the state reached, and whether the slot is out: its record not
announced, or expired. -/
def reportDrops (d : Decisions) (state : SlotState) (out : Bool) (k : CueKind) : Bool :=
  out || byKind false d.reinstates (d.cancels || d.platformDropped) (d.cancels || d.delayDropped || decide (state = .departing))
    (d.cancels || decide (state = .scheduled ∨ state = .departing)) k

/-- The cues a report makes. -/
def reportMakes (i : Nat) (r : Record) (d : Decisions) (b : State) : CueKind → Option Cue :=
  byKind none (madeIf d.cancelMade (cancellationMade i r b)) (madeIf d.platformMade (platformMade i r b))
    (madeIf d.delayMade (delayMade i r d b)) none

/-- Those that join. -/
def reportJoins (i : Nat) (r : Record) (d : Decisions) (b : State) : List Cue :=
  joinIf d.cancelMade (waiting i .cancellation b) (cancellationMade i r b) ++
    joinIf d.platformMade (waiting i .platformChange b) (platformMade i r b) ++
    joinIf d.delayMade (waiting i .delay b) (delayMade i r d b)

section Report

variable {i : Nat} {old : Slot} {r : Record} {b : State}

/-- Nothing is made with the window closed. -/
theorem reportMakes_none {d : Decisions} (hd : d = decisions i old r b) (hclosed : windowOpen b i r = false) (k : CueKind) :
    reportMakes i r d b k = none := by
  have hdue : delayCueDue b.params b.clock r (keOf b i) (slotAt b i).lastCued = false := by
    have hclosed' : announceOpen b.params b.clock r (keOf b i) = false := hclosed
    unfold delayCueDue
    rw [hclosed', Bool.false_and, Bool.false_and]
  have hcancel : d.cancelMade = false := by
    rw [hd]
    exact (congrArg _ hclosed).trans (Bool.and_false _)
  have hplatform : d.platformMade = false := by
    rw [hd]
    exact (congrArg _ hclosed).trans (Bool.and_false _)
  have hdelay : d.delayMade = false := by
    rw [hd]
    exact (congrArg _ hdue).trans (Bool.and_false _)
  rw [reportMakes, hcancel, hplatform, hdelay]
  cases k <;> rfl

/-- A report's cue steps, from the state in which they begin. -/
theorem reportCues_settles (hroom : b.cues.queue.length + 2 ≤ 16) (d : Decisions) (hd : d = decisions i old r b)
    {state : SlotState} (hstate : (slotAt b i).state = state) (hcourse : state = stateFor b.params b.clock r.cancelled (keOf b i)) :
    let u := refreshCues i r (commitCourse i (delayRule i r (reportPlatformCue i old r (reportCancellation i old r b))))
    CuesSettle (onSlot i (reportDrops d state (!r.announce))) (madeOnSlot i (reportMakes i r d b)) (fun _ => false)
        (reportJoins i r d b) (if r.announce then refreshed i r else id) b.cues u.cues ∧ u.att = b.att := by
  have hopen : windowOpen b i r = true → r.announce = true ∧ state ≠ .expired ∧ state ≠ .departing := fun h => by
    rw [hcourse]
    exact announceOpen_spec h
  have hclosed : (r.announce = true ∧ state ≠ .expired ∧ state ≠ .departing → False) → windowOpen b i r = false :=
    fun h => Bool.eq_false_iff.2 fun hw => h (hopen hw)
  have hdeparting : state = .departing → madeIf d.delayMade (delayMade i r d b) = none := fun hs =>
    reportMakes_none hd (hclosed fun h => h.2.2 hs) .delay
  have hsteps := commitCourse_reporting hstate hdeparting (delayRule_reporting (old := old) hroom d hd
    (reportPlatformCue_reporting hroom d hd (reportCancellation_reporting hroom d hd)))
  have hrefresh := refreshCues_settles hsteps.settles (r := r) fun hsilent =>
    reportMakes_none hd (hclosed fun h => by rw [hsilent] at h; exact Bool.false_ne_true h.1)
  have hdrops : (fun k => byKind false d.reinstates (d.cancels || d.platformDropped)
      (d.cancels || d.delayDropped || decide (state = .departing)) (d.cancels || decide (state = .scheduled ∨ state = .departing)) k ||
        !r.announce) = reportDrops d state (!r.announce) := funext fun k => Bool.or_comm ..
  rw [hdrops] at hrefresh
  refine ⟨hrefresh, ?_⟩
  rw [refreshCues]
  split <;> exact hsteps.att

end Report

section Take

variable {s : State} {i : Nat}

/-- The cues of a record taken by a report that is not quiet. -/
theorem applyRecord_settles (hi : i < s.slots.length) (hroll : s.clock.roll < 1440) (hroom : s.cues.queue.length + 2 ≤ 16) :
    let r := recordOf (slotAt s i).staging
    let b := reportBase i s
    let d := decisions i (slotAt s i) r b
    let state := (slotAt b i).state
    CuesSettle (onSlot i (reportDrops d state (decide (state = .expired) || !r.announce))) (madeOnSlot i (reportMakes i r d b))
        (fun j => decide (state = .expired) && decide (j = i)) (reportJoins i r d b) (if r.announce then refreshed i r else id)
        s.cues (applyRecord i false s).cues ∧
      (applyRecord i false s).att = s.att := by
  intro r b d state
  obtain ⟨-, hparams, hclock, hcues, hatt, -⟩ := reportBase_frame i s
  obtain ⟨hstate, hke, -⟩ := reportBase_slot hi hroll
  have hcourse : state = stateFor b.params b.clock r.cancelled (keOf b i) := by
    have hr : r.cancelled = (stagedRecord (slotAt s i).staging).cancelled := by rw [stagedRecord_eq]
    rw [hparams, hclock, hke, stateFor_eq, hr]
    exact hstate
  obtain ⟨u, hu⟩ : ∃ u, u = refreshCues i r (commitCourse i (delayRule i r (reportPlatformCue i (slotAt s i) r
      (reportCancellation i (slotAt s i) r b)))) := ⟨_, rfl⟩
  have hreport := reportCues_settles (old := slotAt s i) (by rw [hcues]; exact hroom) d rfl rfl hcourse
  simp only [← hu] at hreport
  obtain ⟨hsettles, hatt'⟩ := hreport
  have hreported : takenReported i false s = announceFromRecord i u := by
    rw [hu]
    rfl
  have hstate' : (slotAt (announceFromRecord i u) i).state = state := by
    rw [← hreported, takenReported_state false hi, (applyRecord_takes false hi hroll).state hi]
    exact hstate.symm
  have hnone : state = .expired → ∀ k, reportMakes i r d b k = none := fun hexpired =>
    reportMakes_none rfl (Bool.eq_false_iff.2 fun hw => by
      have hne := (announceOpen_spec hw).2.1
      rw [← hcourse] at hne
      exact hne hexpired)
  have hexpired := forgetExpired_settles (u := announceFromRecord i u) hstate' hsettles hnone
  have hdrops : (fun k => reportDrops d state (!r.announce) k || decide (state = .expired)) =
      reportDrops d state (decide (state = .expired) || !r.announce) := funext fun k => by
    rw [reportDrops, reportDrops, Bool.or_comm, ← Bool.or_assoc]
  rw [hdrops, hcues] at hexpired
  rw [applyRecord_eq, hreported]
  refine ⟨hexpired, ?_⟩
  have hforget : (forgetExpired i (announceFromRecord i u)).att = u.att := by
    unfold forgetExpired
    split <;> rfl
  rw [hforget, hatt', hatt]

end Take

/-! ## The commit -/

section Settles

variable {s t : State} {i : Nat} {staging : List Word}

theorem refreshed_same {r : Record} {e : Cue} (h : e.slot ≠ some i) : refreshed i r e = e :=
  if_neg (by rw [ofSlot, decide_eq_true_iff]; exact h)

theorem refreshed_of_slot {r : Record} {e : Cue} (h : e.slot = some i) : refreshed i r e = e.refresh r :=
  if_pos (decide_eq_true h)

/-- What a report decides in the words of the specification (R72, R116 to R122). -/
def specDecisions (i : Nat) (staging : List Word) (s : State) : Decisions :=
  let r := stagedRecord staging
  let open' := windowAt s.params s.clock r (derivedKeys s.clock.roll r).ke
  let d := changeOf false i r s
  let changes := d.moves && !r.cancelled && decide (r.platform ≠ told i s) && open'
  let delays := !r.cancelled && open' && decide (s.params.threshold ≤ r.delay) &&
    match (slotAt s i).lastCued with
    | none => true
    | some l => decide (s.params.step ≤ (r.delay - l) + (l - r.delay))
  { cancels := d.cancels, cancelMade := d.cancels && open', reinstates := d.reinstates, platformMade := changes
    platformDropped := d.compared && decide (d.old ≠ 0 ∧ d.old ≠ d.new) && !changes
    delayMade := delays, delayDropped := !r.cancelled && !delays }

/-- A cue made carries what a refresh would give it. -/
theorem reportMakes_refresh {r : Record} {d : Decisions} {k : CueKind} {c : Cue} (h : reportMakes i r d s k = some c) :
    c.slot = some i ∧ ∀ w, (inPlaceOf w c).refresh r = inPlaceOf w c := by
  have hmade : ∀ {cond : Bool} {c' : Cue}, madeIf cond c' = some c → c' = c := fun {cond _} hc => by
    cases cond with
    | true => exact Option.some.inj hc
    | false => cases hc
  have hcases : c = cancellationMade i r s ∨ c = platformMade i r s ∨ c = delayMade i r d s := by
    cases k with
    | cancellation => exact .inl (hmade h).symm
    | platformChange => exact .inr (.inl (hmade h).symm)
    | delay => exact .inr (.inr (hmade h).symm)
    | boarding | notice | general | emergency => cases h
  obtain rfl | rfl | rfl := hcases <;> exact ⟨rfl, fun w => by cases w <;> rfl⟩

/-- The waiting record of a kind, refreshed (R123). -/
theorem refresh_waiting (r : Record) (k : CueKind) :
    (waiting i k s).map (Cue.refresh r) = (waiting i k s).map fun c => { c with
      service := r.service, destination := r.destination, expected := (r.minute + r.delay) % 1440
      platform := if k = .platformChange then c.platform else r.platform } := by
  cases hw : waiting i k s with
  | none => rfl
  | some c =>
    obtain ⟨-, -, rfl⟩ := waitingIn_some hw
    rfl

theorem ofNat_joinIf (cond : Bool) (old : Option Cue) (c : Cue) :
    BitVec.ofNat 32 (joinIf cond old c).length = fresh (cond && old.isNone) := by
  rw [joinIf_length, fresh]
  split <;> rfl

/-- What waits of a kind that loses its record where `out` or `drop` holds, and else gets a cue where `made` does. -/
theorem settled_branch {out drop made : Bool} (h : made = true → drop = false) (old : Option Cue) (c : Cue) (x : Option Cue) :
    (if (out || drop) = true then none
      else match madeIf made c with
        | some c => some (inPlaceOf old c)
        | none => x) =
      if out = true then none else if made = true then some (inPlaceOf old c) else if drop = true then none else x := by
  cases out with
  | true => rfl
  | false =>
    cases made with
    | true =>
      rw [h rfl]
      rfl
    | false => rfl

theorem specDecisions_cancelMade (h : (specDecisions i staging s).cancelMade = true) :
    (specDecisions i staging s).reinstates = false := by
  have hcancels : (changeOf false i (stagedRecord staging) s).cancels = true := (Bool.and_eq_true_iff.1 h).1
  show (changeOf false i (stagedRecord staging) s).reinstates = false
  simp only [changeOf, Bool.and_eq_true] at hcancels ⊢
  obtain ⟨-, hnow⟩ := hcancels
  rw [hnow, Bool.not_true, Bool.and_false]

theorem specDecisions_platformMade (h : (specDecisions i staging s).platformMade = true) :
    (specDecisions i staging s).platformDropped = false := by
  show (_ && !(specDecisions i staging s).platformMade) = false
  rw [h, Bool.not_true, Bool.and_false]

theorem specDecisions_delay : (specDecisions i staging s).delayDropped =
    (!(stagedRecord staging).cancelled && !(specDecisions i staging s).delayMade) := rfl

theorem specDecisions_delayMade (h : (specDecisions i staging s).delayMade = true) : (stagedRecord staging).cancelled = false := by
  have h' : (!(stagedRecord staging).cancelled && _ && _ && _) = true := h
  simp only [Bool.and_eq_true, Bool.not_eq_true'] at h'
  obtain ⟨⟨⟨hcancelled, -⟩, -⟩, -⟩ := h'
  exact hcancelled

/-- The kinds a report makes cues of. -/
def reportMade (d : Decisions) (k : CueKind) : Bool :=
  match k with
  | .cancellation => d.cancelMade
  | .platformChange => d.platformMade
  | .delay => d.delayMade
  | _ => false

theorem reportMakes_isSome (r : Record) (d : Decisions) (k : CueKind) : (reportMakes i r d s k).isSome = reportMade d k := by
  have hmade : ∀ (cond : Bool) (c : Cue), (madeIf cond c).isSome = cond := fun cond _ => by cases cond <;> rfl
  cases k with
  | cancellation | platformChange | delay => exact hmade _ _
  | boarding | notice | general | emergency => rfl

/-- The condition of a message in flight, by what waits of the kind of its record. -/
theorem conditionAfter_of_waiting {drops : CueKind → Bool} {makes : CueKind → Option Cue} {made : CueKind → Bool}
    (hmade : ∀ k, (makes k).isSome = made k)
    (hwaits : ∀ k, (waiting i k s).isSome = true → (waiting i k t).isNone = drops k) (m : Message) :
    conditionAfter (onSlot i drops) (madeOnSlot i makes) s.cues.queue m =
      match s.cues.queue.find? fun c => decide (c.order = m.cue.order) with
      | some e =>
        if m.condition = .removed ∨ e.slot ≠ some i then m.condition
        else if (waiting i e.kind t).isNone then .removed
        else if made e.kind then .replaced
        else m.condition
      | none => m.condition := by
  unfold conditionAfter
  cases hf : s.cues.queue.find? fun c => decide (c.order = m.cue.order) with
  | none => rfl
  | some e =>
    by_cases hremoved : m.condition = .removed
    · simp only [hremoved, true_or, ↓reduceIte]
    · by_cases hslot : e.slot = some i
      · have hdrops := hwaits e.kind (waitingIn_isSome (List.mem_of_find?_eq_some hf) hslot rfl)
        have hkeyed : e.keyed (onSlot i drops) = drops e.kind := by
          rw [keyed_onSlot, ofSlot, decide_eq_true hslot, Bool.true_and]
        have hmadeFor : e.madeFor (madeOnSlot i makes) = makes e.kind := (madeFor_of_slot hslot).trans (if_pos rfl)
        simp only [hremoved, hslot, hkeyed, hmadeFor, hmade, hdrops, ne_eq, not_true_eq_false, or_self, ↓reduceIte]
      · have hkeyed : e.keyed (onSlot i drops) = false := by
          rw [keyed_onSlot, ofSlot, decide_eq_false hslot, Bool.false_and]
        have hmadeFor : (e.madeFor (madeOnSlot i makes)).isSome = false := by
          cases hs : e.slot with
          | none => rw [Cue.madeFor, hs]; rfl
          | some j =>
            rw [madeFor_of_slot hs, madeOnSlot, if_neg fun hj => hslot (by rw [hs, hj])]
            rfl
        simp only [hremoved, hslot, hkeyed, hmadeFor, Bool.false_eq_true, ne_eq, not_false_eq_true, or_true, ↓reduceIte]

/-- The cues of a slot settled as the report's decisions say. -/
theorem reportSettles_of {after : Cue → Cue}
    (h : let r := stagedRecord staging
      let d := specDecisions i staging s
      let state := tableState s.params s.clock r.cancelled (derivedKeys s.clock.roll r).ke
      CuesSettle (onSlot i (reportDrops d state (decide (state = .expired) || !r.announce))) (madeOnSlot i (reportMakes i r d s))
        (fun j => decide (state = .expired) && decide (j = i)) (reportJoins i r d s) after s.cues t.cues)
    (hafter : ∀ e, e.slot ≠ some i → after e = e)
    (hrefresh : (stagedRecord staging).announce = true → ∀ e, e.slot = some i → after e = e.refresh (stagedRecord staging)) :
    ReportSettles i staging s t := by
  let r := stagedRecord staging
  let state := tableState s.params s.clock r.cancelled (derivedKeys s.clock.roll r).ke
  let d := specDecisions i staging s
  let out := decide (state = .expired) || !r.announce
  let moves := (changeOf false i r s).compared &&
    decide ((changeOf false i r s).old ≠ 0 ∧ (changeOf false i r s).old ≠ (changeOf false i r s).new)
  have hwaiting : ∀ k, waiting i k t = if reportDrops d state out k then none
      else match reportMakes i r d s k with
        | some c => some (inPlaceOf (waiting i k s) c)
        | none => (waiting i k s).map (Cue.refresh r) := by
    intro k
    have hkind := h.waiting i k
    have hon : onSlot i (reportDrops d state out) i k = reportDrops d state out k := by simp [onSlot]
    have hmade : madeOnSlot i (reportMakes i r d s) i k = reportMakes i r d s k := if_pos rfl
    rw [hon, hmade] at hkind
    refine hkind.trans ?_
    cases hdrop : reportDrops d state out k with
    | true => rfl
    | false =>
      have hannounce : r.announce = true := by
        rw [reportDrops, Bool.or_eq_false_iff] at hdrop
        obtain ⟨hout, -⟩ := hdrop
        simpa using (Bool.or_eq_false_iff.1 hout).2
      cases hm : reportMakes i r d s k with
      | some c =>
        obtain ⟨hslot, hsame⟩ := reportMakes_refresh hm
        have hslot' : (inPlaceOf (waiting i k s) c).slot = some i := by
          rw [← hslot]
          cases waiting i k s <;> rfl
        exact congrArg some ((hrefresh hannounce _ hslot').trans (hsame _))
      | none =>
        simp only [Bool.false_eq_true, ↓reduceIte, waiting_eq]
        cases hw : waitingIn i k s.cues.queue with
        | none => rfl
        | some c =>
          obtain ⟨-, hslot, -⟩ := waitingIn_some hw
          exact congrArg some (hrefresh hannounce c hslot)
  refine ⟨?_, ?_, ?_, ?_, ?_, ?_, ?_⟩
  · show waiting i .cancellation t = if out then none
      else if d.cancelMade then some (inPlaceOf (waiting i .cancellation s) (cancellationMade i r s))
      else if d.reinstates then none else _
    rw [hwaiting .cancellation, refresh_waiting]
    exact settled_branch specDecisions_cancelMade ..
  · show waiting i .platformChange t = if out || d.cancels then none
      else if d.platformMade then some (inPlaceOf (waiting i .platformChange s) (platformMade i r s))
      else if moves then none else _
    have hdrop : reportDrops d state out .platformChange = (out || d.cancels || d.platformDropped) := (Bool.or_assoc ..).symm
    rw [hwaiting .platformChange, refresh_waiting, hdrop]
    refine (settled_branch specDecisions_platformMade ..).trans ?_
    have hdropped : d.platformDropped = (moves && !d.platformMade) := rfl
    rw [hdropped]
    cases d.platformMade with
    | true => rfl
    | false => rw [Bool.not_false, Bool.and_true]
  · show waiting i .delay t = if out || d.cancels || decide (state = .departing) then none
      else if r.cancelled then _
      else if d.delayMade then some (inPlaceOf (waiting i .delay s) (delayMade i r d s)) else none
    have hdrop : reportDrops d state out .delay = (out || d.cancels || decide (state = .departing) || d.delayDropped) := by
      show (out || (d.cancels || d.delayDropped || decide (state = .departing))) = _
      ac_rfl
    rw [hwaiting .delay, refresh_waiting, hdrop]
    refine (settled_branch (fun hmade => ?_) ..).trans ?_
    · show d.delayDropped = false
      rw [specDecisions_delay, hmade, Bool.not_true, Bool.and_false]
    · have hdropped : d.delayDropped = (!r.cancelled && !d.delayMade) := rfl
      rw [hdropped]
      cases hmade : d.delayMade with
      | true =>
        have hcancelled : r.cancelled = false := specDecisions_delayMade hmade
        rw [hcancelled]
        rfl
      | false => cases r.cancelled <;> rfl
  · show waiting i .boarding t =
      if out || d.cancels || decide (state = .scheduled ∨ state = .departing) then none else _
    have hdrop : reportDrops d state out .boarding = (out || d.cancels || decide (state = .scheduled ∨ state = .departing)) :=
      (Bool.or_assoc ..).symm
    rw [hwaiting .boarding, refresh_waiting, hdrop]
    rfl
  · refine h.elsewhere (test := fun c => decide (c.slot ≠ some i)) (fun c c' hs => by rw [hs]) (fun c _ hc => ?_) fun c hc => ?_
    · have hslot : c.slot ≠ some i := of_decide_eq_true hc
      refine ⟨?_, ?_, hafter c hslot⟩
      · rw [keyed_onSlot, ofSlot, decide_eq_false hslot, Bool.false_and]
      · cases hs : c.slot with
        | none => rw [Cue.madeFor, hs]; rfl
        | some j =>
          rw [madeFor_of_slot hs]
          exact if_neg fun hj => hslot (by rw [hs, hj])
    · obtain ⟨j, hj⟩ := Option.isSome_iff_exists.1 (h.slots c hc)
      have hmade := h.joined_made hc
      rw [madeFor_of_slot hj, madeOnSlot] at hmade
      by_cases hji : j = i
      · rw [hj, hji]
        exact decide_eq_false (not_not_intro rfl)
      · rw [if_neg hji] at hmade
        cases hmade
  · show t.cues.next = s.cues.next + fresh (d.cancelMade && (waiting i .cancellation s).isNone) +
      fresh (d.platformMade && (waiting i .platformChange s).isNone) + fresh (d.delayMade && (waiting i .delay s).isNone)
    rw [h.next, reportJoins, List.length_append, List.length_append, BitVec.ofNat_add, BitVec.ofNat_add, ofNat_joinIf,
      ofNat_joinIf, ofNat_joinIf, ← BitVec.add_assoc, ← BitVec.add_assoc]
  · intro hnodup
    refine (h.msg hnodup).trans (congrArg (fun f => s.cues.msg.map f) (funext fun m => ?_))
    have hcondition := conditionAfter_of_waiting (i := i) (s := s) (t := t) (drops := reportDrops d state out)
      (makes := reportMakes i r d s) (reportMakes_isSome r d) (fun k hk => ?_) m
    · have hgone : (m.gone || m.cue.slot.any fun j => decide (state = .expired) && decide (j = i)) =
          (m.gone || (decide (state = .expired) && decide (m.cue.slot = some i))) := by
        cases m.cue.slot <;> simp
      exact congrArg₂ (fun (c : Condition) (g : Bool) => { m with condition := c, gone := g }) hcondition hgone
    · rw [hwaiting]
      cases reportDrops d state out k with
      | true => rfl
      | false =>
        cases reportMakes i r d s k with
        | some c => rfl
        | none =>
          obtain ⟨e, he⟩ := Option.isSome_iff_exists.1 hk
          rw [he]
          rfl

theorem ReportSettles.of_cues {u : State} (h : ReportSettles i staging s t) (hqueue : u.cues.queue = t.cues.queue)
    (hnext : u.cues.next = t.cues.next) (hmsg : u.cues.msg = t.cues.msg) : ReportSettles i staging s u := by
  unfold ReportSettles waiting at h ⊢
  rw [hqueue, hnext, hmsg]
  exact h

end Settles

section Commit

variable {s : State} {a : Access} {i : Nat} {err : Bool}

theorem told_commitWritten (h : CommitAt s a i) : told i (commitWritten err a i s) = told i s :=
  told_eq_of (by rw [slotAt_commitWritten_same err h]) rfl

/-- The report of a commit reads what the state before its write holds. -/
theorem specDecisions_commitWritten (h : CommitAt s a i) (staging : List Word) :
    specDecisions i staging (commitWritten err a i s) = specDecisions i staging s := by
  unfold specDecisions
  simp only [changeOf, slotAt_commitWritten_same err h, told_commitWritten h]
  rfl

theorem reportMakes_eq {r : Record} {d : Decisions} {b : State} (htold : told i b = told i s) (hparams : b.params = s.params)
    (hcues : b.cues = s.cues) : reportMakes i r d b = reportMakes i r d s ∧ reportJoins i r d b = reportJoins i r d s := by
  simp only [reportMakes, reportJoins, cancellationMade, platformMade, delayMade, waiting_eq, htold, hparams, hcues, and_self]

/-- Settles O22: the report's cue steps are those of its decisions. -/
theorem commitReportSettlesTheCues : Obligations.CommitReportSettlesTheCues := by
  unfold Obligations.CommitReportSettlesTheCues
  intro err s a i h hrunning hroll hroom staging hvalid hloud hpass
  have hexec := exec_commit err h
  rw [handCommit_takes h (.inl hrunning) hvalid hpass, hloud, hrunning] at hexec
  obtain ⟨w, hw⟩ : ∃ w, w = commitWritten err a i s := ⟨_, rfl⟩
  have hslot : slotAt w i = { slotAt s i with staging := staging } := by rw [hw]; exact slotAt_commitWritten_same err h
  have hlength : i < w.slots.length := by rw [hw]; exact h.lt
  have hparams : w.params = s.params := by rw [hw]; rfl
  have hclock : w.clock = s.clock := by rw [hw]; rfl
  have hcues : w.cues = s.cues := by rw [hw]; rfl
  have hroll' : w.clock.roll < 1440 := by rw [hclock]; exact hroll
  have hstaging : (slotAt w i).staging = staging := by rw [hslot]
  obtain ⟨-, hbparams, -, hbcues, -⟩ := reportBase_frame i w
  obtain ⟨hbstate, -⟩ := reportBase_slot hlength hroll'
  have hdecisions : decisions i (slotAt w i) (recordOf (slotAt w i).staging) (reportBase i w) = specDecisions i staging s := by
    refine (decisions_reportBase hlength hroll').trans ?_
    rw [← specDecisions_commitWritten (err := err) h, ← hw, ← hstaging]
    rfl
  obtain ⟨hmakes, hjoins⟩ := reportMakes_eq (i := i) (r := recordOf (slotAt w i).staging) (d := specDecisions i staging s)
    (b := reportBase i w) (s := s)
    ((told_reportBase hlength hroll').trans (by rw [hw]; exact told_commitWritten h)) (hbparams.trans hparams) (hbcues.trans hcues)
  obtain ⟨hsettles, hatt⟩ := applyRecord_settles hlength hroll' (by rw [hcues]; exact hroom)
  simp only [hdecisions, hmakes, hjoins, hbstate] at hsettles
  rw [hstaging, ← stagedRecord_eq, hparams, hclock, hcues] at hsettles
  have hreport : ReportSettles i staging s (applyRecord i false w) := reportSettles_of hsettles
    (fun e he => by
      split
      · exact refreshed_same he
      · rfl)
    fun hannounce e he => by
      rw [if_pos hannounce]
      exact refreshed_of_slot he
  obtain ⟨t, ht⟩ : ∃ t, t = takeRecord i false w := ⟨_, rfl⟩
  obtain ⟨marks, seq, hmarks⟩ : MarksOnly (applyRecord i false w) t := ht ▸ compared_frame _ _ w
  rw [← hw] at hexec
  refine ⟨settle s t, hexec.trans ?_, hreport.of_cues ?_ ?_ ?_, ?_⟩
  · rw [ht]
    rfl
  · show t.cues.queue = _
    rw [hmarks]
  · show t.cues.next = _
    rw [hmarks]
  · show t.cues.msg = _
    rw [hmarks]
  · show t.att = _
    rw [hmarks]
    refine hatt.trans ?_
    rw [hw]
    rfl

end Commit

end Sys2Proof.Machine
end

section
/-! PROOFS. A platform change announced (R72, R117, R118, R130 to R132). -/

namespace Sys2Proof.Machine

set_option Elab.async false

/-! ## Steps that find nothing -/

theorem removeCues_none {test : Cue → Bool} {s : State} (h : ∀ e ∈ s.cues.queue, test e = false) : (removeCues test s).cues = s.cues := by
  have hqueue : (s.cues.queue.filter fun c => !test c) = s.cues.queue := List.filter_eq_self.2 fun e he => by rw [h e he]; rfl
  have hmsg : (s.cues.msg.map fun m =>
      if s.cues.queue.any (fun c => test c && decide (c.order = m.cue.order)) then { m with condition := .removed } else m) =
        s.cues.msg := by
    have hany : ∀ m : Message, (s.cues.queue.any fun c => test c && decide (c.order = m.cue.order)) = false := fun m =>
      List.any_eq_false.2 fun e he => by rw [h e he, Bool.false_and]; exact Bool.false_ne_true
    simp only [hany, Bool.false_eq_true, ↓reduceIte, Option.map_id']
  refine (CueUnit.remove_eq test s.cues).trans ?_
  rw [hqueue, hmsg]

section Tail

variable {i : Nat} {r : Record} {c : Cue} {v : State}

/-- The steps after the platform kind, where the only cue of the slot is one made by it. -/
theorem reportTail_cues (hcancelled : r.cancelled = false) (hannounce : r.announce = true)
    (hdue : delayCueDue v.params v.clock r (keOf v i) (slotAt v i).lastCued = false)
    (honly : ∀ e ∈ v.cues.queue, e.slot = some i → e = c) (hkind : c.kind = .platformChange) (hrefresh : c.refresh r = c) :
    let t := announceFromRecord i (refreshCues i r (commitCourse i (delayRule i r v)))
    t.cues = v.cues ∧ t.att = v.att := by
  have hnot : ∀ k, k ≠ .platformChange → ∀ e ∈ v.cues.queue, ofKind k i e = false := by
    intro k hk e he
    rw [ofKind_eq, Bool.and_eq_false_imp]
    intro hslot
    rw [honly e he (of_decide_eq_true hslot), hkind]
    exact decide_eq_false fun h => hk h.symm
  have hdelay : delayRule i r v = removeCues (ofKind .delay i) v := by
    rw [delayRule, hcancelled, hdue]
    rfl
  obtain ⟨u, hu⟩ : ∃ u, u = delayRule i r v := ⟨_, rfl⟩
  have hucues : u.cues = v.cues := by
    rw [hu, hdelay]
    exact removeCues_none (hnot .delay nofun)
  have huatt : u.att = v.att := by
    rw [hu, hdelay]
    rfl
  obtain ⟨w, hw⟩ : ∃ w, w = commitCourse i u := ⟨_, rfl⟩
  have hwu : w.cues = u.cues ∧ w.att = u.att := by
    rw [hw, commitCourse]
    split
    · exact ⟨removeCues_none fun e he => hnot .boarding nofun e (hucues ▸ he), rfl⟩
    · refine ⟨removeCues_none fun e he => ?_, rfl⟩
      rw [hnot .boarding nofun e (hucues ▸ he), hnot .delay nofun e (hucues ▸ he)]
      rfl
    · exact ⟨rfl, rfl⟩
  obtain ⟨hwcues, hwatt⟩ := hwu
  have hmap : (w.cues.queue.map fun e => if ofSlot i e then e.refresh r else e) = w.cues.queue := by
    refine (List.map_congr_left (g := id) fun e he => ?_).trans (List.map_id _)
    rw [hwcues, hucues] at he
    split
    · rename_i hslot
      rw [honly e he (of_decide_eq_true hslot), hrefresh]
      rfl
    · rfl
  have hrefreshed : refreshCues i r w = { w with cues := { w.cues with
      queue := w.cues.queue.map fun e => if ofSlot i e then e.refresh r else e } } :=
    if_neg (by rw [hannounce]; exact Bool.noConfusion)
  rw [← hu, ← hw, hrefreshed, hmap]
  exact ⟨hwcues.trans hucues, hwatt.trans huatt⟩

end Tail

/-! ## A cue for a slot of which none waits (R131, R132) -/

section Fresh

variable {s : State} {c : Cue} {i : Nat}

theorem placed_mem (hfree : s.cues.queue.any (fun e => sameCue e c) = false) :
    ∀ e ∈ (makeCue c s).cues.queue, e ∈ s.cues.queue ∨ e = { c with order := s.cues.next } := by
  intro e he
  have hcues : (makeCue c s).cues = (s.cues.placeCue c).1 := rfl
  rw [hcues] at he
  obtain ⟨hany, -⟩ | ⟨-, -, hplace⟩ | ⟨-, -, v, -, -, hplace⟩ | ⟨-, -, -, hplace⟩ := CueUnit.placeCue_cases c s.cues
  · rw [hfree] at hany
    cases hany
  · rw [hplace] at he
    exact (List.mem_append.1 he).imp_right List.mem_singleton.1
  · rw [hplace] at he
    have hremoved := CueUnit.remove_frame (fun e => decide (e.order = v.order)) s.cues
    refine (List.mem_append.1 he).imp (fun h => ?_) fun h => ?_
    · rw [CueUnit.remove_queue] at h
      exact (List.mem_filter.1 h).1
    · rw [hremoved] at h
      exact List.mem_singleton.1 h
  · rw [hplace] at he
    exact .inl he

theorem makeCue_joins (hfree : s.cues.queue.any (fun e => sameCue e c) = false) (hroom : s.cues.queue.length < 16) :
    (makeCue c s).cues.queue = s.cues.queue ++ [{ c with order := s.cues.next }] ∧ (makeCue c s).cues.next = s.cues.next + 1 ∧
      (makeCue c s).att = s.att := by
  rw [makeCue, handCue_joined c s hfree hroom]
  exact ⟨rfl, rfl, rfl⟩

theorem makeCue_displaces (hfree : s.cues.queue.any (fun e => sameCue e c) = false) (hfull : s.cues.queue.length = 16) {v : Cue}
    (hv : v ∈ s.cues.queue) (hrank : v.rank < c.rank) (hbest : ∀ e ∈ s.cues.queue, e ≠ v → v.rank < e.rank ∨
      v.rank = e.rank ∧ (s.cues.next - v.order).toNat < (s.cues.next - e.order).toNat) :
    (makeCue c s).cues.queue =
        s.cues.queue.filter (fun e => decide (e.order ≠ v.order)) ++ [{ c with order := s.cues.next }] ∧
      (makeCue c s).cues.next = s.cues.next + 1 ∧ (makeCue c s).att = s.att.pend .cueDropped := by
  have hvictim : victim s.cues = some v := victim_eq_some hv hbest
  have hplace : s.cues.placeCue c =
      ((s.cues.remove fun e => decide (e.order = v.order)).join c, .displaced s.cues.next v.kind v.slot) := by
    rw [CueUnit.placeCue, if_neg (by rw [hfree]; exact Bool.false_ne_true), if_neg (by rw [hfull]; exact Nat.lt_irrefl 16), hvictim]
    exact if_pos hrank
  rw [remove_order hv] at hplace
  rw [makeCue, handCue, hplace]
  exact ⟨rfl, rfl, rfl⟩

theorem makeCue_drops (hfree : s.cues.queue.any (fun e => sameCue e c) = false) (hfull : s.cues.queue.length = 16)
    (hrank : ∀ e ∈ s.cues.queue, c.rank ≤ e.rank) :
    (makeCue c s).cues.queue = s.cues.queue ∧ (makeCue c s).cues.next = s.cues.next ∧
      (makeCue c s).att = s.att.pend .cueDropped := by
  have hplace : s.cues.placeCue c = (s.cues, .dropped) := by
    rw [CueUnit.placeCue, if_neg (by rw [hfree]; exact Bool.false_ne_true), if_neg (by rw [hfull]; exact Nat.lt_irrefl 16)]
    cases hv : victim s.cues with
    | none => rfl
    | some v => exact if_neg (Nat.not_lt_of_le (hrank v (victim_mem hv)))
  rw [makeCue, handCue, hplace]
  exact ⟨rfl, rfl, rfl⟩

end Fresh

end Sys2Proof.Machine
end

section
/-! PROOFS. The commit that announces a platform change, with a full queue or not. -/

namespace Sys2Proof.Machine

set_option Elab.async false

theorem slotAt_of_set {s t : State} {i : Nat} {x : Slot} (h : t.slots = s.slots.set i x) (hi : i < s.slots.length) :
    slotAt t i = x := by
  rw [slotAt, h]
  simp [hi]

/-- A commit changes slot i's platform from that of `old` to that of `r` and has it to announce: the slot compared, no record
cancelled, the window open, the new platform not told yet, no delay worth announcing. -/
structure Announces (i : Nat) (old r : Record) (s : State) : Prop where
  staged : stagedRecord (slotAt s i).staging = r
  applied : (slotAt s i).applied = some old
  compared : isCompared (slotAt s i) = true
  wasHeld : old.cancelled = false
  held : r.cancelled = false
  oldPlatform : old.platform ≠ 0
  platform : r.platform ≠ 0
  moves : old.platform ≠ r.platform
  window : windowAt s.params s.clock r (derivedKeys s.clock.roll r).ke = true
  delay : r.delay < s.params.threshold
  news : told i s ≠ r.platform

section Announce

variable {s : State} {i : Nat} {old r : Record}

theorem Announces.change (h : Announces i old r s) :
    (changeOf false i r s).compared = true ∧ (changeOf false i r s).old = old.platform ∧ (changeOf false i r s).new = r.platform ∧
      (changeOf false i r s).moves = true := by
  have hcompared : (changeOf false i r s).compared = true := (changeOf_compared false r).trans h.compared
  have hold : (changeOf false i r s).old = old.platform := by
    show (((slotAt s i).applied.map (·.platform)).getD 0) = _
    rw [h.applied]
    rfl
  refine ⟨hcompared, hold, rfl, (moves_iff _).2 ⟨hcompared, ?_⟩⟩
  rw [hold]
  exact ⟨h.moves, h.oldPlatform, h.platform⟩

theorem Announces.state (h : Announces i old r s) :
    tableState s.params s.clock r.cancelled (derivedKeys s.clock.roll r).ke ≠ .expired := by
  have hwindow := h.window
  rw [← announceOpen_eq] at hwindow
  rw [← stateFor_eq]
  exact (announceOpen_spec hwindow).2.1

/-- Footnotes and highlight of the platform change (R117, R118). -/
theorem Announces.taken {t : State} (h : Announces i old r s) (hi : i < s.slots.length) (hfoot : s.footnotes.length = 32)
    (hp : s.params.p ≤ 32) (hold : old.platform ≤ s.params.p) (hnew : r.platform ≤ s.params.p)
    (htakes : TakesRecord false i (slotAt s i).staging s t) :
    footnoteAt t old.platform = some { slot := i, toPlatform := r.platform, left := s.params.changeHold } ∧
      (∀ n, footnoteAt t r.platform = some n → n.slot ≠ i) ∧ (slotAt t i).highlight = some s.params.changeHold := by
  obtain ⟨hcompared, hchangeOld, hchangeNew, hmoves⟩ := h.change
  have hlive := h.state
  unfold TakesRecord at htakes
  simp only [h.staged] at htakes
  obtain ⟨hslots, -, hnotes⟩ := htakes
  simp only [hlive, decide_false] at hslots hnotes
  have hat : ∀ p, p ≠ 0 → p ≤ s.params.p → footnoteAt t p =
      footnoteAfter (changeOf false i r s) false i p s.params (footnoteAt s p) := by
    intro p hp0 hple
    have hlt : p - 1 < s.footnotes.length := by omega
    have hboard : p - 1 + 1 = p := by omega
    rw [footnoteAt, hnotes]
    have hmapped := footnoteAt_mapFootnotes s (footnoteAfter (changeOf false i r s) false i · s.params ·) hlt
    rw [hboard] at hmapped
    exact hmapped
  refine ⟨?_, fun n hn => ?_, ?_⟩
  · rw [hat _ h.oldPlatform hold]
    simp [footnoteAfter, hcompared, hchangeOld, hchangeNew, h.moves, Nat.not_lt_of_le hold]
  · rw [hat _ h.platform hnew] at hn
    have hstays : ¬((changeOf false i r s).compared = false ∨ (changeOf false i r s).old = (changeOf false i r s).new ∨
        s.params.p < r.platform) := by
      rw [hcompared, hchangeOld, hchangeNew]
      exact fun hor => hor.elim nofun fun hor' => hor'.elim h.moves (Nat.not_lt_of_le hnew)
    have heq : r.platform = (changeOf false i r s).new := rfl
    simp only [footnoteAfter, if_neg hstays, if_pos heq, Bool.false_and, Bool.false_eq_true, ↓reduceIte] at hn
    intro hslot
    split at hn
    · cases hn
    · rename_i hrefers
      rw [hn] at hrefers
      exact hrefers (decide_eq_true hslot)
  · rw [slotAt_of_set hslots hi]
    have hback : ¬(r.cancelled = false ∧ r.platform = told i s) := fun hb => h.news hb.2.symm
    simp only [hmoves, if_neg hback, Bool.false_eq_true, ↓reduceIte]

/-- The cue steps of the report come to the cue made for the platform change. -/
theorem Announces.cues (h : Announces i old r s) (hi : i < s.slots.length) (hroll : s.clock.roll < 1440)
    (hfree : ∀ c ∈ s.cues.queue, c.slot ≠ some i) :
    let b := reportBase i s
    (applyRecord i false s).cues = (makeCue (platformCue b i r) b).cues ∧
      (applyRecord i false s).att = (makeCue (platformCue b i r) b).att := by
  intro b
  obtain ⟨-, hparams, hclock, hcues, -⟩ := reportBase_frame i s
  obtain ⟨-, hke, -⟩ := reportBase_slot hi hroll
  rw [h.staged] at hke
  have hr : recordOf (slotAt s i).staging = r := (stagedRecord_eq _).symm.trans h.staged
  have holdCancelled : oldCancelled (slotAt s i) = false := by
    rw [oldCancelled, h.applied]
    exact h.wasHeld
  have holdPlatform : Machine.oldPlatform (slotAt s i) = old.platform := by
    rw [Machine.oldPlatform, h.applied]
    rfl
  have hwindow : windowOpen b i r = true := by
    rw [windowOpen_reportBase hi hroll, h.staged]
    exact h.window
  have htold : told i b = told i s := told_reportBase hi hroll
  have hcancellation : reportCancellation i (slotAt s i) r b = b := by
    simp [reportCancellation, holdCancelled, h.held]
  have hplatform : reportPlatformCue i (slotAt s i) r b = makeCue (platformCue b i r) b := by
    have hmoves : isCompared (slotAt s i) = true ∧ Machine.oldPlatform (slotAt s i) ≠ 0 ∧
        Machine.oldPlatform (slotAt s i) ≠ r.platform := by
      rw [holdPlatform]
      exact ⟨h.compared, h.oldPlatform, h.moves⟩
    have hback : ¬(r.cancelled = true ∨ r.platform = toldPlatform b i ∨ windowOpen b i r = false) := by
      rw [told_eq, htold, h.held, hwindow]
      exact fun hor => hor.elim nofun fun hor' => hor'.elim (fun he => h.news he.symm) nofun
    rw [reportPlatformCue, if_pos hmoves, if_neg h.platform, changeCue, if_neg hback]
  obtain ⟨v, hv⟩ : ∃ v, v = makeCue (platformCue b i r) b := ⟨_, rfl⟩
  have hframe : CuesOnly b v := hv ▸ makeCue_frame _ b
  have hfree' : b.cues.queue.any (fun e => sameCue e (platformCue b i r)) = false := List.any_eq_false.2 fun e he => by
    rw [sameCue_eq_keyed (i := i) (k := .platformChange) rfl rfl, keyed_isKey]
    exact fun hkey => hfree e (hcues ▸ he) hkey.1
  have honly : ∀ e ∈ v.cues.queue, e.slot = some i → e = { platformCue b i r with order := b.cues.next } := fun e he hslot =>
    (placed_mem hfree' e (hv ▸ he)).resolve_left fun hmem => hfree e (hcues ▸ hmem) hslot
  have hdue : delayCueDue v.params v.clock r (keOf v i) (slotAt v i).lastCued = false := by
    unfold delayCueDue
    rw [hframe.params, hparams, decide_eq_false (Nat.not_le_of_lt h.delay), Bool.and_false, Bool.false_and]
  have hannounce : r.announce = true := (announceOpen_spec (show announceOpen b.params b.clock r (keOf b i) = true from hwindow)).1
  have htail := reportTail_cues h.held hannounce hdue honly rfl rfl
  have hreported : takenReported i false s = announceFromRecord i (refreshCues i r (commitCourse i (delayRule i r v))) := by
    have hsteps : takenReported i false s = announceFromRecord i (refreshCues i (recordOf (slotAt s i).staging)
        (commitCourse i (delayRule i (recordOf (slotAt s i).staging) (reportPlatformCue i (slotAt s i)
          (recordOf (slotAt s i).staging) (reportCancellation i (slotAt s i) (recordOf (slotAt s i).staging) b))))) := rfl
    rw [hsteps, hr, hcancellation, hplatform, hv]
  have hstate : (slotAt (takenReported i false s) i).state ≠ .expired := by
    rw [takenReported_state false hi, (applyRecord_takes false hi hroll).state hi, h.staged]
    exact h.state
  rw [applyRecord_eq, forgetExpired, if_neg hstate, hreported, ← hv]
  exact htail

end Announce

/-- Settles O25: the report of the commit comes to its one cue, handed to the queue. -/
theorem platformChangeIsAnnounced : Obligations.PlatformChangeIsAnnounced := by
  unfold Obligations.PlatformChangeIsAnnounced
  intro err s a i old h hrunning staging r ke hvalid hloud hpass happlied hvacant hexpired hwasHeld hheld holdPlatform hplatform
    hmoves hold hp hfoot hroll hwindow hdelay hnews hfree c
  have hexec := exec_commit err h
  rw [handCommit_takes h (.inl hrunning) hvalid hpass, hloud, hrunning] at hexec
  obtain ⟨w, hw⟩ : ∃ w, w = commitWritten err a i s := ⟨_, rfl⟩
  have hslot : slotAt w i = { slotAt s i with staging := staging } := by rw [hw]; exact slotAt_commitWritten_same err h
  have hlength : i < w.slots.length := by rw [hw]; exact h.lt
  have hparams : w.params = s.params := by rw [hw]; rfl
  have hclock : w.clock = s.clock := by rw [hw]; rfl
  have hcues : w.cues = s.cues := by rw [hw]; rfl
  have hatt : w.att = s.att := by rw [hw]; rfl
  have hroll' : w.clock.roll < 1440 := by rw [hclock]; exact hroll
  have htold : told i w = told i s := by rw [hw]; exact told_commitWritten h
  have hnew : r.platform ≤ s.params.p := by
    obtain ⟨-, -, hle, -⟩ := hpass
    exact hle
  have hann : Announces i old r w := {
    staged := by rw [hslot]
    applied := by rw [hslot]; exact happlied
    compared := by
      rw [hslot]
      show (decide ((slotAt s i).state ≠ .vacant) && decide ((slotAt s i).state ≠ .expired)) = true
      rw [decide_eq_true hvacant, decide_eq_true hexpired]
      rfl
    wasHeld := hwasHeld
    held := hheld
    oldPlatform := holdPlatform
    platform := hplatform
    moves := hmoves
    window := by rw [hparams, hclock]; exact hwindow
    delay := by rw [hparams]; exact hdelay
    news := by rw [htold]; exact hnews }
  obtain ⟨htakes, -, -⟩ := takeRecord_takes false hlength hroll'
  obtain ⟨t, ht⟩ : ∃ t, t = takeRecord i false w := ⟨_, rfl⟩
  rw [← ht] at htakes
  obtain ⟨hnotes, hother, hhighlight⟩ := hann.taken hlength (by rw [hw]; exact hfoot) (by rw [hparams]; exact hp)
    (by rw [hparams]; exact hold) (by rw [hparams]; exact hnew) htakes
  rw [hparams] at hnotes hhighlight
  obtain ⟨-, hbparams, -, hbcues, hbatt, -⟩ := reportBase_frame i w
  obtain ⟨hacues, haatt⟩ := hann.cues hlength hroll' (by rw [hcues]; exact hfree)
  obtain ⟨marks, seq, hmarks⟩ : MarksOnly (applyRecord i false w) t := ht ▸ compared_frame _ _ w
  obtain ⟨b, hb⟩ : ∃ b, b = reportBase i w := ⟨_, rfl⟩
  rw [← hb] at hbparams hbcues hbatt hacues haatt
  have hmade : ({ platformCue b i r with order := b.cues.next } : Cue) = c := by
    have hmade' := platformCue_order (b := w) (r := r) (by rw [hb]; exact told_reportBase hlength hroll') hbparams b.cues.next
    rw [htold, hparams, hbcues, hcues] at hmade'
    rw [hbcues, hcues]
    exact hmade'
  have hrank : (platformCue b i r).rank = c.rank := rfl
  have hfree' : b.cues.queue.any (fun e => sameCue e (platformCue b i r)) = false := List.any_eq_false.2 fun e he => by
    rw [sameCue_eq_keyed (i := i) (k := .platformChange) rfl rfl, keyed_isKey]
    intro hkey
    rw [hbcues, hcues] at he
    exact hfree e he hkey.1
  have htcues : (settle s t).cues.queue = (makeCue (platformCue b i r) b).cues.queue ∧
      (settle s t).cues.next = (makeCue (platformCue b i r) b).cues.next ∧ (settle s t).att = (makeCue (platformCue b i r) b).att := by
    rw [← hacues, ← haatt]
    show t.cues.queue = _ ∧ t.cues.next = _ ∧ t.att = _
    rw [hmarks]
    exact ⟨rfl, rfl, rfl⟩
  obtain ⟨hqueue, hnext, hflags⟩ := htcues
  have hbs : b.cues = s.cues := hbcues.trans hcues
  have hbas : b.att = s.att := hbatt.trans hatt
  refine ⟨settle s t, ?_, hnotes, hother, hhighlight, fun hroom => ?_, fun hfull => ⟨fun v hv hlow hbest => ?_, fun hall => ?_⟩⟩
  · rw [← hw] at hexec
    refine hexec.trans ?_
    rw [ht]
    rfl
  · obtain ⟨hq, hn, ha⟩ := makeCue_joins hfree' (by rw [hbs]; exact hroom)
    rw [hmade] at hq
    rw [hqueue, hnext, hflags, hq, hn, ha, hbs, hbas]
    exact ⟨rfl, rfl, rfl⟩
  · obtain ⟨hq, hn, ha⟩ := makeCue_displaces hfree' (by rw [hbs]; exact hfull) (v := v) (by rw [hbs]; exact hv) (hrank ▸ hlow)
      (by rw [hbs]; exact hbest)
    rw [hmade] at hq
    rw [hqueue, hnext, hflags, hq, hn, ha, hbs, hbas]
    exact ⟨rfl, rfl, rfl⟩
  · obtain ⟨hq, hn, ha⟩ := makeCue_drops hfree' (by rw [hbs]; exact hfull) (by rw [hbs]; exact hrank ▸ hall)
    rw [hqueue, hnext, hflags, hq, hn, ha, hbs, hbas]
    exact ⟨rfl, rfl, rfl⟩

end Sys2Proof.Machine
end

section
/-! PROOFS. The outcome of a slot's load (R41, R42). -/

namespace Sys2Proof.Machine

set_option Elab.async false

/-! ## The outcome, as what becomes of the slot -/

theorem IsVacated.of_staged {result : LastResult} {generation i : Nat} {staging : List Word} {s w t : State}
    (h : Stages i staging s w) (ht : IsVacated result generation i staging w t) : IsVacated result generation i staging s t := by
  unfold IsVacated at ht ⊢
  have hrowMap : w.rowMap = s.rowMap := by rw [h.frame]
  have hfootnotes : w.footnotes = s.footnotes := by rw [h.frame]
  have hset : ∀ x, w.slots.set i x = s.slots.set i x := fun x => by
    rw [h.slots, List.set_set]
  rw [hset, hrowMap, hfootnotes] at ht
  obtain ⟨hslots, hrows, hnotes, hlost⟩ := ht
  exact ⟨hslots, hrows, hnotes, hlost.of_eq rfl h.cues.symm rfl⟩

/-- What a load outcome makes of slot i (R42). -/
def LoadApplied (err : Bool) (i : Nat) (staging : List Word) (s t : State) : Prop :=
  if err = true then IsVacated .loadFault (slotAt s i).generation i staging s t
  else if flag (stagedWord staging 5) 0 = false then IsVacated .taken (field (stagedWord staging 5) 8 8) i staging s t
  else match refusalOf s.params.p staging with
    | some refusal => IsVacated refusal (slotAt s i).generation i staging s t
    | none => TakesRecord true i staging s t ∧ LosesItsCues (decide ((slotAt t i).state = .expired)) i s t

section Outcome

variable {s w : State} {i : Nat} {staging : List Word} {err : Bool}

/-- A load outcome vacates its slot, or takes the record, quietly. -/
theorem loadOutcome_cases (h : Stages i staging s w) :
    (∃ result generation, loadOutcome i err w = vacateSlot i result generation w ∧
      ∀ t, IsVacated result generation i staging s t → LoadApplied err i staging s t) ∨
    loadOutcome i err w = takeRecord i true w ∧
      ∀ t, TakesRecord true i staging s t ∧ LosesItsCues (decide ((slotAt t i).state = .expired)) i s t →
        LoadApplied err i staging s t := by
  have hstaging : (slotAt w i).staging = staging := by rw [h.slot]
  have hgeneration : (slotAt w i).generation = (slotAt s i).generation := by rw [h.slot]
  cases err with
  | true =>
    refine .inl ⟨.loadFault, (slotAt s i).generation, ?_, fun t ht => ?_⟩
    · rw [← hgeneration]
      rfl
    · exact ht
  | false =>
    cases hvalid : flag (stagedWord staging 5) 0 with
    | false =>
      refine .inl ⟨.taken, field (stagedWord staging 5) 8 8, ?_, fun t ht => ?_⟩
      · have hnot : commitValid (stagedWord (slotAt w i).staging 5) ≠ true := by
          rw [hstaging]
          exact fun hv => Bool.false_ne_true (hvalid.symm.trans hv)
        rw [loadOutcome, if_neg Bool.false_ne_true, if_neg hnot, hstaging]
        rfl
      · rw [LoadApplied, if_neg Bool.false_ne_true, if_pos hvalid]
        exact ht
    | true =>
      have hyes : commitValid (stagedWord (slotAt w i).staging 5) = true := by
        rw [hstaging]
        exact hvalid
      have happlied : ∀ t, LoadApplied false i staging s t = (match refusalOf s.params.p staging with
          | some refusal => IsVacated refusal (slotAt s i).generation i staging s t
          | none => TakesRecord true i staging s t ∧ LosesItsCues (decide ((slotAt t i).state = .expired)) i s t) := fun t => by
        exact (if_neg Bool.false_ne_true).trans ((if_neg (by rw [hvalid]; exact Bool.noConfusion)).trans rfl)
      simp only [happlied]
      have hload : loadOutcome i false w = match refusalOf w.params.p (slotAt w i).staging with
          | some code => vacateSlot i code (slotAt w i).generation w
          | none => takeRecord i true w := by
        rw [loadOutcome, if_neg Bool.false_ne_true]
        exact (if_pos hyes).trans rfl
      rw [hload, hstaging, hgeneration, h.params]
      cases hcode : refusalOf s.params.p staging with
      | some code => exact .inl ⟨code, (slotAt s i).generation, rfl, fun t ht => ht⟩
      | none => exact .inr ⟨rfl, fun t ht => ht⟩

/-- The slot, row map, footnotes and cues of a load outcome, and its frame. -/
theorem loadOutcome_applies (h : Stages i staging s w) (hroll : s.clock.roll < 1440) :
    let u := loadOutcome i err w
    LoadApplied err i staging s u ∧ OnlySlots { w with mem := { w.mem with noted := u.mem.noted } } u := by
  intro u
  have hstaging : (slotAt w i).staging = staging := by rw [h.slot]
  obtain ⟨result, generation, hu, happlies⟩ | ⟨hu, happlies⟩ := loadOutcome_cases (err := err) h
  · obtain ⟨hvacated, -, honly⟩ := vacateSlot_isVacated h.lt' result generation
    rw [← hu, hstaging] at hvacated
    rw [← hu] at honly
    exact ⟨happlies u (hvacated.of_staged h), honly⟩
  · obtain ⟨htakes, hquiet, honly⟩ := takeRecord_takes true h.lt' (by rw [h.clock]; exact hroll)
    obtain ⟨hlost, -⟩ := hquiet rfl
    rw [← hu] at htakes hlost honly
    rw [hstaging] at htakes
    exact ⟨happlies u ⟨htakes.of_staged h, hlost.of_eq rfl h.cues.symm rfl⟩, honly⟩

end Outcome

/-! ## Its marks (R90, R97, R101) -/

section Marks

variable {s w : State} {i : Nat} {staging : List Word} {err : Bool}

/-- The state of a slot whose record is taken. -/
theorem applyRecord_state (hi : i < s.slots.length) (quiet : Bool) : (slotAt (applyRecord i quiet s) i).state ≠ .vacant := by
  obtain ⟨_, _, _, _, _, _, _, _, _, hr⟩ := applyRecord_reports i quiet s
  have hlength : i < (takenPlaced i s).slots.length := by
    rw [takenPlaced_frame]
    exact (List.length_set ..).symm ▸ hi
  have hplaced : place i (setSlot i ((slotAt s i).take s.params s.clock) s) = takenPlaced i s := rfl
  rw [hplaced] at hr
  have hstate : (slotAt (applyRecord i quiet s) i).state = (slotAt (takenPlaced i s) i).state := by
    rw [hr]
    simp [slotAt, hlength]
  rw [hstate, slotAt_takenPlaced hi]
  exact stateFor_ne_vacant _ _ _ _

/-- A load outcome is an event with its comparison, of the class of its cause (R90). -/
theorem loadOutcome_compared (h : Stages i staging s w) {u : State} (hu : u = loadOutcome i err w) :
    let urgent := decide ((slotAt u i).state = .vacant) || UrgentChange (slotAt s i).applied (stagedRecord staging)
    ∃ f, u = compared (some { slot := i, urgent := urgent }) f w ∧ (f w).params = w.params ∧ (f w).display = w.display := by
  intro urgent
  have hslot := h.slot
  obtain ⟨result, generation, hoc, -⟩ | ⟨hoc, -⟩ := loadOutcome_cases (err := err) h
  · obtain ⟨⟨hslots, -⟩, -⟩ := vacateSlot_isVacated h.lt' result generation
    rw [hoc] at hu
    rw [← hu] at hslots
    have hurgent : urgent = true := by
      have hvacant : (slotAt u i).state = .vacant := by rw [slotAt_of_set hslots h.lt']
      show (decide ((slotAt u i).state = .vacant) || _) = true
      rw [hvacant]
      rfl
    rw [hurgent]
    exact ⟨_, hu, vacate_frame_params result generation⟩
  · rw [hoc] at hu
    obtain ⟨marks, seq, hmarks⟩ : MarksOnly (applyRecord i true w) u := hu ▸ compared_frame _ _ w
    have hstate : (slotAt u i).state ≠ .vacant := by
      rw [hmarks]
      exact applyRecord_state h.lt' true
    have hurgent : urgent = takenUrgent (slotAt w i).applied (recordOf (slotAt w i).staging) := by
      show (decide ((slotAt u i).state = .vacant) || _) = _
      rw [decide_eq_false hstate, Bool.false_or, hslot, takenUrgent_eq, stagedRecord_eq]
    rw [hurgent]
    exact ⟨applyRecord i true, hu, applyRecord_frame_params true⟩

end Marks

end Sys2Proof.Machine
end

section
/-! PROOFS. The load from one slot to the next (R41, R42), and its end (R114, R176). -/

namespace Sys2Proof.Machine

set_option Elab.async false

/-! ## The answer that brings a load outcome -/

/-- The staging copy that a load outcome is judged by. -/
def loadedStaging (data : Word) (err : Bool) (i : Nat) (s : State) : List Word :=
  if err then (slotAt s i).staging else (slotAt s i).staging.set 5 data

/-- The state whose slot the load outcome is applied to. -/
def loadBase (data : Word) (err : Bool) (i addr : Nat) (rest : List ReadReq) (s : State) : State :=
  if err then readFaulted { addr := addr, source := .load } rest true s else stageWord i 5 data (readTaken rest s)

section Load

variable {data : Word} {err : Bool} {s : State} {addr i k : Nat} {rest : List ReadReq}

theorem loadBase_frame : loadBase data err i addr rest s = { s with
    mem := (loadBase data err i addr rest s).mem, att := (loadBase data err i addr rest s).att
    slots := s.slots.set i { slotAt s i with staging := loadedStaging data err i s } } := by
  cases err with
  | true =>
    have hself : s.slots.set i { slotAt s i with staging := (slotAt s i).staging } = s.slots := setSlot_self i s
    have hstaging : loadedStaging data true i s = (slotAt s i).staging := rfl
    rw [hstaging, hself]
    rfl
  | false => rfl

theorem loadBase_stages (hi : i < s.slots.length) : Stages i (loadedStaging data err i s) s (loadBase data err i addr rest s) :=
  ⟨loadBase_frame, hi⟩

theorem loadBase_mem : (loadBase data err i addr rest s).mem.reads = rest ∧ (loadBase data err i addr rest s).mem.noted = s.mem.noted := by
  cases err <;> exact ⟨rfl, rfl⟩

/-- The answer of the commit word, or a failed one, brings the outcome, and the load goes on. -/
theorem exec_loadOutcome (hpin : s.resetPin = false) (hport : s.mem.port = .ownRead { addr := addr, source := .load })
    (hreads : s.mem.reads = { addr := addr, source := .load } :: rest) (hreading : s.part.reading = .table i k)
    (hlast : err = true ∨ k = 5) :
    exec (.ownReadComplete data err) s =
      .next (settle s (nextSlot i (loadOutcome i err (loadBase data err i addr rest s)))) := by
  rw [exec_ownReadComplete hpin hport hreads data err, deliver_load,
    deliverLoad_table ((readFaulted_reading _ _ _ _).trans hreading), tableAnswer]
  cases err with
  | true => rfl
  | false =>
    obtain rfl : k = 5 := hlast.resolve_left nofun
    rfl

end Load

/-! ## What the load leaves as the outcome made it -/

/-- From `u` to `t` the slots, row map, footnotes, cues, clock and parameters stay. -/
structure KeepsSlots (u t : State) : Prop where
  slots : t.slots = u.slots
  rowMap : t.rowMap = u.rowMap
  footnotes : t.footnotes = u.footnotes
  queue : t.cues.queue = u.cues.queue
  next : t.cues.next = u.cues.next
  msg : t.cues.msg = u.cues.msg
  clock : t.clock = u.clock
  params : t.params = u.params

theorem KeepsSlots.trans {s t u : State} (h : KeepsSlots s t) (h' : KeepsSlots t u) : KeepsSlots s u :=
  ⟨h'.slots.trans h.slots, h'.rowMap.trans h.rowMap, h'.footnotes.trans h.footnotes, h'.queue.trans h.queue, h'.next.trans h.next,
    h'.msg.trans h.msg, h'.clock.trans h.clock, h'.params.trans h.params⟩

theorem KeepsSlots.slotAt {u t : State} (h : KeepsSlots u t) (i : Nat) : slotAt t i = slotAt u i := by
  rw [Machine.slotAt, Machine.slotAt, h.slots]

theorem KeepsSlots.sameContent {u t : State} (h : KeepsSlots u t) : SameContent u t :=
  sameContent_of_eq h.slots h.rowMap h.footnotes h.clock h.params

/-- The load's next step: the read of the next slot, or the load's end. -/
theorem nextSlot_frame (i : Nat) (u : State) : ∃ reads part cmd att marks seq, nextSlot i u = { u with
    mem := { u.mem with reads := reads }, part := part, cmd := cmd, att := att
    display := { u.display with marks := marks, joinSeq := seq } } := by
  unfold nextSlot
  split
  · exact ⟨_, _, u.cmd, u.att, u.display.marks, u.display.joinSeq, rfl⟩
  · obtain ⟨marks, seq, hmarks⟩ := handMarks_frame ((configuredDrops (pend .loadDone (setPart .running .idle u))).map fun a =>
      markFor a false none) (pend .loadDone (setPart .running .idle u))
    have hrefresh : fullRefresh (pend .loadDone (setPart .running .idle u)) = _ := hmarks
    rw [loadDone, hrefresh]
    exact ⟨_, _, _, _, _, _, complete_eq ..⟩

theorem nextSlot_keepsSlots (i : Nat) (s u : State) : KeepsSlots u (settle s (nextSlot i u)) := by
  obtain ⟨_, _, _, _, _, _, h⟩ := nextSlot_frame i u
  rw [h]
  exact ⟨rfl, rfl, rfl, rfl, rfl, rfl, rfl, rfl⟩

theorem LoadApplied.of_keeps {err : Bool} {i : Nat} {staging : List Word} {s u t : State} (h : LoadApplied err i staging s u)
    (hkeeps : KeepsSlots u t) : LoadApplied err i staging s t := by
  unfold LoadApplied IsVacated TakesRecord LosesItsCues at h ⊢
  rw [hkeeps.slots, hkeeps.rowMap, hkeeps.footnotes, hkeeps.queue, hkeeps.next, hkeeps.msg, hkeeps.slotAt]
  exact h

/-- The frame of a load outcome and the load's next step. -/
theorem nextSlot_onlySlots {i : Nat} {staging : List Word} {s w u : State} (hw : Stages i staging s w)
    (honly : OnlySlots { w with mem := { w.mem with noted := u.mem.noted } } u) :
    let t := settle s (nextSlot i u)
    OnlySlots { s with mem := t.mem, part := t.part, cmd := t.cmd } t := by
  intro t
  obtain ⟨reads, part, cmd, att, marks, seq, hnext⟩ := nextSlot_frame i u
  have ht : t = settle s (nextSlot i u) := rfl
  rw [hnext, settle_frame] at ht
  rw [honly, hw.frame] at ht
  rw [OnlySlots, ht]

/-! ## The marks of a load outcome (R90, R97, R101) -/

section Marks

variable {err : Bool} {i : Nat} {staging : List Word} {s w u t : State}

theorem Stages.paramsSound (h : Stages i staging s w) (hp : ParamsSound s) : ParamsSound w := by
  rw [h.frame]
  exact hp

theorem Stages.displaySound (h : Stages i staging s w) (hd : DisplaySound s) : DisplaySound w := by
  rw [h.frame]
  exact hd

theorem Stages.display (h : Stages i staging s w) : w.display = s.display := by rw [h.frame]

theorem Stages.sameContent (h : Stages i staging s w) : SameContent s w :=
  sameContent_of_shown (by rw [h.frame]) (by rw [h.frame]) h.clock h.params h.shown

theorem MarksOnly.sameContent (h : MarksOnly s t) : SameContent s t := by
  obtain ⟨marks, seq, rfl⟩ := h
  exact sameContent_of_eq rfl rfl rfl rfl rfl

theorem loadOutcome_marks (hw : Stages i staging s w) (hu : u = loadOutcome i err w) (hkeeps : KeepsSlots u t) (hp : ParamsSound s)
    (hd : DisplaySound s) (hmarks : t.display.marks = u.display.marks ∧ t.display.joinSeq = u.display.joinSeq) :
    MarksJoin (askedMarks (decide ((slotAt t i).state = .vacant) || UrgentChange (slotAt s i).applied (stagedRecord staging)) i s t)
      i s t := by
  obtain ⟨f, hcompared, hparams, hdisplay⟩ := loadOutcome_compared hw hu
  have hsame : SameContent (f w) u := hcompared ▸ (compared_frame _ f w).sameContent
  rw [hkeeps.slotAt]
  refine marksJoin_of_compared (asks_some i _) (hw.paramsSound hp) (hw.displaySound hd) hparams hdisplay hw.params.symm
    hw.display.symm hw.sameContent.symm (hsame.trans hkeeps.sameContent) ?_
  rw [← hcompared]
  exact hmarks

end Marks

/-- Settles O18: the outcome as a slot vacated or a record taken, and the read of the next slot's first word. -/
theorem loadOutcomeIsApplied : Obligations.LoadOutcomeIsApplied := by
  unfold Obligations.LoadOutcomeIsApplied
  intro data err s addr rest i k hpin hport hreads hreading hi hlength hroll hlast x staging word code
  have hexec := exec_loadOutcome (data := data) hpin hport hreads hreading hlast
  have hw := loadBase_stages (data := data) (err := err) (addr := addr) (rest := rest) (s := s) (i := i) (by rw [hlength]; exact hi)
  obtain ⟨hwreads, -⟩ := loadBase_mem (data := data) (err := err) (addr := addr) (rest := rest) (s := s) (i := i)
  obtain ⟨w, hwdef⟩ : ∃ w, w = loadBase data err i addr rest s := ⟨_, rfl⟩
  rw [← hwdef] at hexec hw hwreads
  obtain ⟨happlied, honly⟩ := loadOutcome_applies (err := err) hw hroll
  obtain ⟨u, hu⟩ : ∃ u, u = loadOutcome i err w := ⟨_, rfl⟩
  rw [← hu] at hexec happlied honly
  obtain ⟨t, ht⟩ : ∃ t, t = settle s (nextSlot i u) := ⟨_, rfl⟩
  have hkeeps : KeepsSlots u t := ht ▸ nextSlot_keepsSlots i s u
  have honlySlots : OnlySlots { s with mem := t.mem, part := t.part, cmd := t.cmd } t := ht ▸ nextSlot_onlySlots hw honly
  rw [← ht] at hexec
  refine ⟨t, hexec, happlied.of_keeps hkeeps, honlySlots, fun hnext => ?_⟩
  have hread : nextSlot i u = readTable (i + 1) 0 u := if_pos (by show i + 1 < 96; omega)
  have hureads : u.mem.reads = w.mem.reads := by rw [honly]
  have hupart : u.part = s.part := by rw [honly, hw.frame]
  have hucmd : u.cmd = s.cmd := by rw [honly, hw.frame]
  have hustrap : u.strap = s.strap := by rw [honly, hw.frame]
  rw [hread] at ht
  refine ⟨?_, ?_, ?_, fun hp hd => ?_⟩
  · rw [ht]
    show ({ u.part with state := u.part.state, reading := .table (i + 1) 0 } : Part) = _
    rw [hupart]
  · rw [ht]
    exact hucmd
  · rw [ht]
    show u.mem.reads ++ [{ addr := tableAddr u.strap (i + 1) 0, source := .load }] = _
    have haddr : tableAddr s.strap (i + 1) 0 = strapBase s.strap + 0x1000 + 32 * (i + 1) := by simp [tableAddr]
    rw [hureads, hwreads, hustrap, haddr]
  · refine loadOutcome_marks hw hu hkeeps hp hd ?_
    rw [ht]
    exact ⟨rfl, rfl⟩

end Sys2Proof.Machine
end

section
/-! PROOFS. The end of the load: the full refresh, and the RELOAD in execution completed (R97, R114, R176, R177). -/

namespace Sys2Proof.Machine

set_option Elab.async false

/-! ## The full refresh -/

theorem withAsked_display {asked : List (Nat × Bool)} {i : Nat} {s t : State} (h : s.display = t.display) :
    (withAsked asked i s).display = (withAsked asked i t).display := by
  have hdrop : ∀ a, dropAt s a = dropAt t a := fun a => by simp only [dropAt, h]
  have hjoining : joining asked s = joining asked t := by simp only [joining, listens, hdrop, h]
  simp only [withAsked, entriesFor, hjoining, h]

/-- A drop whose mark is asked for and can join has one. -/
theorem MarksJoin.has {asked : List (Nat × Bool)} {i a : Nat} {s t : State} (h : MarksJoin asked i s t) (ha : a ∈ asked.map (·.1))
    (hlistens : listens s a = true) : ∃ m ∈ t.display.marks, m.drop = a := by
  obtain ⟨hmarks, -⟩ := h
  rw [hmarks]
  by_cases hold : ∃ e ∈ s.display.marks, e.drop = a
  · obtain ⟨e, he, hdrop⟩ := hold
    exact ⟨_, List.mem_append.2 (.inl (List.mem_map.2 ⟨e, he, rfl⟩)), hdrop⟩
  · have hnone : (s.display.marks.any fun e => decide (e.drop = a)) = false :=
      List.any_eq_false.2 fun e he hdrop => hold ⟨e, he, of_decide_eq_true hdrop⟩
    have hjoined : a ∈ joining asked s := List.mem_filter.2 ⟨List.mem_eraseDups.2 ha, by rw [hlistens, hnone]; rfl⟩
    obtain ⟨n, hn, hget⟩ := List.mem_iff_getElem.1 hjoined
    have hzip : (a, n) ∈ (joining asked s).zipIdx := List.mem_zipIdx_iff_getElem?.2 (List.getElem?_eq_some_iff.2 ⟨hn, hget⟩)
    exact ⟨_, List.mem_append.2 (.inr (List.mem_map.2 ⟨(a, n), hzip, rfl⟩)), rfl⟩

/-- The routine marks of the drops of a list. -/
def routine (drops : List Nat) : List (Nat × Bool) := drops.map fun a => (a, false)

/-- A mark for a drop that holds no role is discarded (R97). -/
theorem joinMark_unconfigured {m : Mark} {s : State} (h : (dropAt s m.drop).role = .none) : joinMark m s = s := if_pos (.inr h)

theorem fold_configured (i : Nat) (drops : List Nat) {s t : State} (h : MarksOnly s t) :
    ((routine (drops.filter fun a => decide ((dropAt s a).role ≠ .none))).map (askedMark i)).foldl (fun t m => joinMark m t) t =
      ((routine drops).map (askedMark i)).foldl (fun t m => joinMark m t) t := by
  induction drops generalizing t with
  | nil => rfl
  | cons a rest ih =>
    by_cases hrole : (dropAt s a).role = .none
    · have hskip : joinMark (askedMark i (a, false)) t = t := joinMark_unconfigured (by rw [h.dropAt]; exact hrole)
      rw [List.filter_cons_of_neg (by simpa using hrole)]
      show _ = ((routine rest).map (askedMark i)).foldl _ (joinMark (askedMark i (a, false)) t)
      rw [hskip]
      exact ih h
    · rw [List.filter_cons_of_pos (by simpa using hrole)]
      exact ih (h.trans (joinMark_frame _ _))

theorem fullRefresh_eq (i : Nat) (s : State) : fullRefresh s = withAsked (routine (configuredDrops s)) i s :=
  handMarks_routine (configuredDrops s) i s

/-- The full refresh behind other marks is one run of marks asked for, over all addresses (R114). -/
theorem fullRefresh_withAsked {asked : List (Nat × Bool)} {i : Nat} {s : State}
    (h : ∀ e ∈ s.display.marks, listens s e.drop = true) :
    fullRefresh (withAsked asked i s) = withAsked (asked ++ routine (List.range 128)) i s := by
  have hfirst := foldl_joinMark_eq (asked := asked) (i := i) (s := s) fun e he _ => h e he
  have hsecond := foldl_joinMark_eq (asked := routine (configuredDrops (withAsked asked i s))) (i := i) (s := withAsked asked i s)
    fun e _ hasks => by simp [asksUrgent, routine] at hasks
  have hall := foldl_joinMark_eq (asked := asked ++ routine (List.range 128)) (i := i) (s := s) fun e he _ => h e he
  rw [fullRefresh_eq i, ← hsecond, ← hall, List.map_append, List.foldl_append, hfirst]
  exact fold_configured i (List.range 128) (.refl _)

/-! ## The end of the load -/

section Done

variable {s u : State}

/-- The state as the load ends, before its full refresh. -/
def loadEnding (u : State) : State := pend .loadDone (setPart .running .idle u)

/-- The load's end, as what it makes of each block. -/
theorem loadDone_facts (u : State) :
    let v := fullRefresh (loadEnding u)
    let t := loadDone u
    t.part = { u.part with state := .running, reading := .idle } ∧ IsPending .loadDone t ∧ t.mem.reads = u.mem.reads ∧
      t.display = v.display ∧
      CompletesWith .done .none [resultOf (bitOf u.part.clamped), resultOf u.rowMap.length] u t := by
  intro v t
  obtain ⟨marks, seq, hv⟩ : MarksOnly (loadEnding u) v := handMarks_frame _ _
  have hdone : t = complete .done .none [resultOf (bitOf v.part.clamped), resultOf v.rowMap.length] v := rfl
  have hcompletes := complete_completesWith .done .none [resultOf (bitOf v.part.clamped), resultOf v.rowMap.length] v
  have hflags := complete_only .done .none [resultOf (bitOf v.part.clamped), resultOf v.rowMap.length] v
  have heq := complete_eq .done .none [resultOf (bitOf v.part.clamped), resultOf v.rowMap.length] v
  rw [← hdone] at hcompletes hflags heq
  refine ⟨?_, ?_, ?_, ?_, ?_⟩
  · rw [heq, hv]
    rfl
  · have hpending : IsPending .loadDone v := by
      rw [hv]
      exact isPending_pend .loadDone _
    exact IsPending.of_flags hpending (hflags.same .flags)
  · rw [heq, hv]
    rfl
  · rw [heq]
  · unfold CompletesWith at hcompletes ⊢
    rw [hv] at hcompletes
    exact hcompletes

theorem nextSlot_last (u : State) : nextSlot 95 u = loadDone u := if_neg (by show ¬95 + 1 < 96; omega)

end Done

/-- The marks of the last outcome, and those of the full refresh behind them. -/
theorem loadDone_marks {err : Bool} {i : Nat} {staging : List Word} {s w u t : State} (hw : Stages i staging s w)
    (hu : u = loadOutcome i err w) (hkeeps : KeepsSlots u t) (hp : ParamsSound s) (hd : DisplaySound s)
    (hdisplay : t.display = (fullRefresh (loadEnding u)).display) :
    MarksJoin (askedMarks (decide ((slotAt t i).state = .vacant) || UrgentChange (slotAt s i).applied (stagedRecord staging)) i s t ++
      routine (List.range 128)) i s t := by
  obtain ⟨f, hcompared, hparams, hfdisplay⟩ := loadOutcome_compared hw hu
  rw [hkeeps.slotAt]
  obtain ⟨urgent, hurgent⟩ : ∃ urgent, urgent =
    (decide ((slotAt u i).state = .vacant) || UrgentChange (slotAt s i).applied (stagedRecord staging)) := ⟨_, rfl⟩
  rw [← hurgent] at hcompared ⊢
  have hdrop : ∀ a, dropAt s a = dropAt w a := fun a => by simp only [dropAt, hw.display]
  have hsame : SameContent (f w) u := hcompared ▸ (compared_frame _ f w).sameContent
  have hasked : askedMarks urgent i s t = askedMarks urgent i w (f w) :=
    askedMarks_congr hw.params.symm (by rw [hw.display]) hdrop hw.sameContent.symm (hsame.trans hkeeps.sameContent)
  have hwith := compared_eq (asks_some i urgent) (hw.paramsSound hp) (hw.displaySound hd) hparams hfdisplay
  have hlisten : ∀ e ∈ (f w).display.marks, listens (f w) e.drop = true := fun e he => by
    obtain ⟨-, -, -, hmarks, -⟩ := hw.displaySound hd
    rw [hfdisplay] at he
    have hdropf : dropAt (f w) e.drop = dropAt w e.drop := by simp only [dropAt, hfdisplay]
    rw [listens_iff, hdropf]
    exact hmarks e he
  have hending : (fullRefresh (loadEnding u)).display = (fullRefresh u).display := by
    rw [fullRefresh_eq i, fullRefresh_eq i]
    exact withAsked_display rfl
  have hall : t.display = (withAsked (askedMarks urgent i s t ++ routine (List.range 128)) i s).display := by
    rw [hdisplay, hending, hcompared, hwith, fullRefresh_withAsked hlisten, hasked]
    exact withAsked_display (hfdisplay.trans hw.display)
  exact marksJoin_of_display (by rw [hall]; exact ⟨rfl, rfl⟩)

/-- Settles O19: the outcome's marks, the full refresh behind them, and the command in execution completed. -/
theorem loadEndsWithAFullRefresh : Obligations.LoadEndsWithAFullRefresh := by
  unfold Obligations.LoadEndsWithAFullRefresh
  intro data err s addr rest k hpin hport hreads hreading hlast x staging
  have hexec := exec_loadOutcome (data := data) hpin hport hreads hreading hlast
  obtain ⟨hwreads, -⟩ := loadBase_mem (data := data) (err := err) (addr := addr) (rest := rest) (s := s) (i := 95)
  obtain ⟨w, hwdef⟩ : ∃ w, w = loadBase data err 95 addr rest s := ⟨_, rfl⟩
  obtain ⟨u, hu⟩ : ∃ u, u = loadOutcome 95 err w := ⟨_, rfl⟩
  rw [← hwdef, ← hu, nextSlot_last] at hexec
  rw [← hwdef] at hwreads
  have hwframe := loadBase_frame (data := data) (err := err) (addr := addr) (rest := rest) (s := s) (i := 95)
  rw [← hwdef] at hwframe
  have hframe := (loadOutcome_only 95 err w).overlay
  rw [← hu] at hframe
  obtain ⟨hupart, hucmd, hureads, hudrops⟩ : u.part = s.part ∧ u.cmd = s.cmd ∧ u.mem.reads = rest ∧
      u.display.drops = s.display.drops := by
    rw [hframe, ← hwreads]
    refine ⟨?_, ?_, rfl, ?_⟩ <;> rw [hwframe] <;> rfl
  obtain ⟨hpart, hpending, hreads', hdisplay, hsome, hnone⟩ := loadDone_facts u
  obtain ⟨v, hv⟩ : ∃ v, v = loadDone u := ⟨_, rfl⟩
  rw [← hv] at hexec hpart hpending hreads' hdisplay hsome hnone
  have hkeeps : KeepsSlots u (settle s v) := by
    have hnext := nextSlot_keepsSlots 95 s u
    rwa [nextSlot_last, ← hv] at hnext
  have hdrop : ∀ a, dropAt (loadEnding u) a = dropAt s a := fun a => by
    show u.display.drops.getD a _ = _
    rw [hudrops]
    rfl
  have hrefresh : MarksJoin (routine (configuredDrops (loadEnding u))) 95 (loadEnding u) (settle s v) := by
    refine marksJoin_of_display ?_
    rw [← fullRefresh_eq, ← hdisplay]
    exact ⟨rfl, rfl⟩
  refine ⟨settle s v, hexec, ?_, hpending, hreads'.trans hureads, fun a ha hrole honline => ?_, fun hlength hp hd => ?_, fun hexec => ?_,
    fun words hexec => ?_⟩
  · exact hpart.trans (by rw [hupart])
  · refine hrefresh.has ?_ ?_
    · rw [routine, List.map_map]
      refine List.mem_map.2 ⟨a, List.mem_filter.2 ⟨List.mem_range.2 ha, ?_⟩, rfl⟩
      rw [hdrop]
      exact decide_eq_true hrole
    · rw [listens_iff, hdrop]
      exact ⟨honline, hrole⟩
  · exact loadDone_marks (loadBase_stages (by omega)) (hwdef ▸ hu) hkeeps hp hd hdisplay
  · exact (hnone (hucmd ▸ hexec)).trans hucmd
  · refine (hsome words (by rw [hucmd]; exact hexec)).trans ?_
    rw [hucmd, hupart, hkeeps.rowMap]
    rfl

end Sys2Proof.Machine
end

section
/-! PROOFS. A time advance over the departures: the stages of the day roll and the second event, and what they make of slots, row
map and footnotes (R32 to R35, R71, R76, R81, R82, R126). -/

namespace Sys2Proof.Machine

set_option Elab.async false

/-! ## Moves reported one after another -/

/-- A slot of these moves becomes EXPIRED. -/
def expiresIn (moves : List (Nat × SlotState × SlotState)) (i : Nat) : Bool :=
  moves.any fun m => decide (m.1 = i) && decide (m.2.2 = .expired)

/-- What an EXPIRED slot forgets of itself (R126). -/
def Slot.forgotten (x : Slot) : Slot := { x with highlight := none, announced := 0, lastCued := none }

theorem moveReport_cuesOnly {i : Nat} {left reached : SlotState} (h : reached ≠ .expired) (s : State) :
    CuesOnly s (moveReport i left reached s) := by
  unfold moveReport
  split
  · split
    · split
      · exact makeCue_frame _ s
      · exact .refl s
    · exact .refl s
  · exact removeCues_frame _ s
  · exact removeCues_frame _ s
  · exact absurd rfl h
  · exact .refl s

theorem forget_slot {i j : Nat} {s : State} (hj : j < s.slots.length) :
    slotAt (forget i s) j = if j = i then (slotAt s j).forgotten else slotAt s j := by
  obtain ⟨msg, noted, h⟩ := forget_frame i s
  rw [h]
  by_cases hji : j = i
  · subst hji
    rw [if_pos rfl]
    exact slotAt_setSlot_same s _ hj
  · rw [if_neg hji]
    exact slotAt_setSlot_other s _ hji

theorem forget_footnotes (i : Nat) (s : State) :
    (forget i s).footnotes = s.footnotes.map fun n => if n.any (fun f => decide (f.slot = i)) then none else n := by
  obtain ⟨msg, noted, h⟩ := forget_frame i s
  rw [h]
  simp only [refersTo_eq_any]

theorem forget_length (i : Nat) (s : State) : (forget i s).slots.length = s.slots.length := by
  obtain ⟨msg, noted, h⟩ := forget_frame i s
  rw [h]
  exact List.length_set ..

/-- What the reports of moves leave of slots and footnotes. -/
theorem reportMoves_spec (moves : List (Nat × SlotState × SlotState)) (s : State) :
    let t := reportMoves moves s
    t.slots.length = s.slots.length ∧
      (∀ j < s.slots.length, slotAt t j = if expiresIn moves j then (slotAt s j).forgotten else slotAt s j) ∧
      t.footnotes = s.footnotes.map fun n => if n.any (fun f => expiresIn moves f.slot) then none else n := by
  induction moves generalizing s with
  | nil =>
    have hnone : ∀ n : Option Footnote, (if n.any (fun _ => false) then none else n) = n := fun n => by cases n <;> rfl
    refine ⟨rfl, fun _ _ => rfl, ?_⟩
    show s.footnotes = s.footnotes.map fun n => if n.any (fun _ => false) then none else n
    simp only [hnone, List.map_id']
  | cons m rest ih =>
    obtain ⟨i, left, reached⟩ := m
    have hcons : reportMoves ((i, left, reached) :: rest) s = reportMoves rest (moveReport i left reached s) := rfl
    have hexpires : ∀ j, expiresIn ((i, left, reached) :: rest) j =
        ((decide (i = j) && decide (reached = .expired)) || expiresIn rest j) := fun j => rfl
    obtain ⟨hlength, hslots, hnotes⟩ := ih (moveReport i left reached s)
    rw [hcons]
    by_cases hreached : reached = .expired
    · subst hreached
      rw [moveReport_expired] at hlength hslots hnotes ⊢
      simp only [hexpires, decide_true, Bool.and_true]
      refine ⟨hlength.trans (forget_length i s), fun j hj => ?_, hnotes.trans ?_⟩
      · rw [hslots j (by rw [forget_length]; exact hj), forget_slot hj]
        by_cases hji : j = i
        · subst hji
          simp only [decide_true, Bool.true_or, ↓reduceIte]
          split <;> rfl
        · have hij : ¬i = j := fun h => hji h.symm
          simp only [hji, hij, decide_false, Bool.false_or, ↓reduceIte]
      · rw [forget_footnotes, List.map_map]
        refine congrArg (fun f => s.footnotes.map f) (funext fun n => ?_)
        cases n with
        | none => rfl
        | some f =>
          by_cases hf : f.slot = i
          · simp [hf]
          · have hif : ¬i = f.slot := fun h => hf h.symm
            simp [hf, hif]
    · obtain ⟨_, _, _, _, _, hframe⟩ := moveReport_cuesOnly (i := i) (left := left) hreached s
      rw [hframe] at hlength hslots hnotes
      simp only [hexpires, hreached, decide_false, Bool.and_false, Bool.false_or]
      rw [hframe]
      exact ⟨hlength, hslots, hnotes⟩

/-! ## The stages -/

/-- The moves of the slots that the day roll forces to EXPIRED. -/
def rollMoves (roll : Bool) (s : State) : List (Nat × SlotState × SlotState) :=
  if roll then (forcedByRoll s).map fun i => (i, (slotAt s i).state, .expired) else []

/-- Slots and row map rolled, before the forced ones are forgotten. -/
def rolled (roll : Bool) (s : State) : State :=
  if roll then pruneRowMap (pend .dayRoll { s with slots := s.slots.map Slot.rebase }) else s

/-- The state in which the second event begins. -/
def rolledReported (roll : Bool) (s : State) : State := reportMoves (rollMoves roll s) (rolled roll s)

theorem rolledReported_eq (roll : Bool) (s : State) : (if roll then dayRoll s else s) = rolledReported roll s := by
  cases roll with
  | true =>
    have hfold : ∀ (l : List Nat) (u : State), l.foldl (fun t i => forget i t) u =
        reportMoves (l.map fun i => (i, (slotAt s i).state, .expired)) u := by
      intro l
      induction l with
      | nil => exact fun _ => rfl
      | cons i rest ih =>
        intro u
        rw [List.foldl_cons, ih, List.map_cons]
        show _ = reportMoves _ (moveReport i _ .expired u)
        rw [moveReport_expired]
    exact hfold _ _
  | false => rfl

/-- Slots and row map moved by the time, before the moves are reported. -/
def moved (s : State) : State := pruneRowMap { s with slots := s.slots.map (Slot.advance s.params s.clock) }

/-- The second event of a set clock: the moves, reported in an order left free (log entry 12). -/
theorem reevaluate_eq {s : State} (hset : s.clock.isSet = true) :
    ∃ moves n, moves.Perm (dueMoves s) ∧ reevaluate s = reportMoves moves { moved s with freeCount := n } := by
  rw [reevaluate, if_pos hset]
  simp only
  split
  · exact ⟨dueMoves s, s.freeCount, .refl _, rfl⟩
  · exact ⟨_, s.freeCount + 1, arrange_perm (Config.openOrder s.freeCount) (dueMoves s), rfl⟩

end Sys2Proof.Machine
end

section
/-! PROOFS. A time advance over the departures: which slots move, and what it makes of slots, row map and footnotes
(R32 to R35, R71, R76, R81, R82, R126). -/

namespace Sys2Proof.Machine

set_option Elab.async false

/-! ## A slot over a time advance -/

/-- A slot after the day roll, if there is one. -/
def Slot.rolledBy (roll : Bool) (x : Slot) : Slot := if roll then x.rebase else x

/-- A slot moved by day roll and time. -/
def Slot.timed (roll : Bool) (q : Params) (c : Clock) (x : Slot) : Slot := (x.rolledBy roll).advance q c

/-- The day roll forces the slot to EXPIRED (R34). -/
def Slot.forced (roll : Bool) (x : Slot) : Bool := roll && (x.state.active && decide (x.keys.map (·.offset) = some (-1)))

/-- The slot becomes EXPIRED, by the roll or by the time. -/
def Slot.outlived (roll : Bool) (q : Params) (c : Clock) (x : Slot) : Bool :=
  x.state.active && decide ((x.timed roll q c).state = .expired)

/-- A slot after a time advance: moved, forgotten where it became EXPIRED, and its highlight run down. -/
def Slot.passed (roll : Bool) (seconds : Nat) (q : Params) (c : Clock) (x : Slot) : Slot :=
  let y := if x.outlived roll q c then (x.timed roll q c).forgotten else x.timed roll q c
  { y with highlight := y.highlight.bind (countDown seconds) }

theorem Slot.rolledBy_of_forced {roll : Bool} {x : Slot} (h : x.forced roll = true) : x.rolledBy roll = { x with state := .expired } := by
  simp only [Slot.forced, Bool.and_eq_true, decide_eq_true_iff] at h
  obtain ⟨hroll, hactive, hkeys⟩ := h
  obtain ⟨k, hk, hoffset⟩ := Option.map_eq_some_iff.1 hkeys
  rw [Slot.rolledBy, if_pos hroll, Slot.rebase, hk]
  exact (if_pos hactive).trans (if_pos hoffset)

theorem Slot.rolledBy_state {roll : Bool} {x : Slot} (h : x.forced roll = false) : (x.rolledBy roll).state = x.state := by
  unfold Slot.rolledBy
  cases roll with
  | false => rfl
  | true =>
    rw [if_pos rfl]
    unfold Slot.rebase
    split
    · rename_i k hk
      split
      · rename_i hactive
        split
        · rename_i hoffset
          have hforced : x.forced true = true := by simp [Slot.forced, hactive, hk, hoffset]
          rw [h] at hforced
          cases hforced
        · rfl
      · rfl
    · rfl

theorem dueMove_expired {q : Params} {c : Clock} {x : Slot} (h : x.state = .expired) : dueMove q c x = none := by
  cases hd : dueMove q c x with
  | none => rfl
  | some n =>
    have hactive := (dueMove_cases hd).1
    rw [h] at hactive
    cases hactive

theorem Slot.timed_of_forced {roll : Bool} {q : Params} {c : Clock} {x : Slot} (h : x.forced roll = true) :
    x.timed roll q c = { x with state := .expired } := by
  rw [Slot.timed, Slot.rolledBy_of_forced h, Slot.advance, dueMove_expired rfl]

/-- A move takes a slot further along its course, to another state. -/
theorem dueMove_ne {q : Params} {c : Clock} {x : Slot} {n : SlotState} (h : dueMove q c x = some n) : n ≠ x.state := by
  unfold dueMove at h
  split at h
  · split at h
    · rename_i hmove
      obtain rfl := Option.some.inj h
      intro he
      rw [he] at hmove
      exact Nat.lt_irrefl _ hmove.2
    · cases h
  · cases h

/-- The moves of a slot: forced by the roll, or due by the time. -/
theorem Slot.moves_iff {roll : Bool} {q : Params} {c : Clock} {x : Slot} {l n : SlotState} :
    (x.forced roll = true ∧ l = x.state ∧ n = .expired ∨ l = (x.rolledBy roll).state ∧ dueMove q c (x.rolledBy roll) = some n) ↔
      l = x.state ∧ n = (x.timed roll q c).state ∧ l.active = true ∧ n ≠ l := by
  cases hforced : x.forced roll with
  | true =>
    have hactive : x.state.active = true := by
      simp only [Slot.forced, Bool.and_eq_true] at hforced
      exact hforced.2.1
    have hnone : dueMove q c (x.rolledBy roll) = none := dueMove_expired (by rw [Slot.rolledBy_of_forced hforced])
    rw [hnone, Slot.timed_of_forced hforced]
    constructor
    · rintro (⟨-, rfl, rfl⟩ | ⟨-, h⟩)
      · exact ⟨rfl, rfl, hactive, fun h => by rw [← h] at hactive; cases hactive⟩
      · cases h
    · rintro ⟨rfl, rfl, -, -⟩
      exact .inl ⟨rfl, rfl, rfl⟩
  | false =>
    have hstate := Slot.rolledBy_state hforced
    rw [hstate, Slot.timed, Slot.advance]
    constructor
    · rintro (⟨h, -⟩ | ⟨rfl, h⟩)
      · cases h
      · rw [h, ← hstate]
        exact ⟨rfl, rfl, (dueMove_cases h).1, dueMove_ne h⟩
    · rintro ⟨rfl, hn, -, hne⟩
      refine .inr ⟨rfl, ?_⟩
      cases hdue : dueMove q c (x.rolledBy roll) with
      | none =>
        rw [hdue] at hn
        exact absurd (hn.trans hstate) hne
      | some m =>
        rw [hdue] at hn
        rw [hn]

/-! ## The whole table -/

theorem slotAt_map (f : Slot → Slot) (hf : f .reset = .reset) (s : State) (i : Nat) :
    slotAt { s with slots := s.slots.map f } i = f (slotAt s i) := by
  show (s.slots.map f).getD i .reset = f (s.slots.getD i .reset)
  conv_lhs => rw [← hf]
  exact List.getD_map ..

theorem slotAt_reportMoves (moves : List (Nat × SlotState × SlotState)) (s : State) (i : Nat) :
    slotAt (reportMoves moves s) i = if expiresIn moves i then (slotAt s i).forgotten else slotAt s i := by
  obtain ⟨hlength, hslots, -⟩ := reportMoves_spec moves s
  by_cases hi : i < s.slots.length
  · exact hslots i hi
  · have hreset : ∀ t : State, t.slots.length = s.slots.length → slotAt t i = .reset := fun t ht =>
      List.getD_eq_default _ _ (by rw [ht]; omega)
    rw [hreset _ hlength, hreset s rfl]
    split <;> rfl

theorem zipIdx_of_active {s : State} {i : Nat} (h : (slotAt s i).state.active = true) : (slotAt s i, i) ∈ s.slots.zipIdx :=
  List.mk_mem_zipIdx_iff_getElem?.2 (mem_slots_of_live h)

theorem slotAt_of_zipIdx {s : State} {i : Nat} {x : Slot} (h : (x, i) ∈ s.slots.zipIdx) : slotAt s i = x := by
  rw [slotAt, List.getD_eq_getElem?_getD, List.mk_mem_zipIdx_iff_getElem?.1 h]
  rfl

theorem mem_dueMoves_iff {s : State} {i : Nat} {l n : SlotState} :
    (i, l, n) ∈ dueMoves s ↔ l = (slotAt s i).state ∧ dueMove s.params s.clock (slotAt s i) = some n := by
  constructor
  · intro h
    refine ⟨?_, mem_dueMoves h⟩
    obtain ⟨⟨x, j⟩, hmem, hm⟩ := List.mem_filterMap.1 h
    obtain ⟨m, -, heq⟩ := Option.map_eq_some_iff.1 hm
    cases heq
    rw [slotAt_of_zipIdx hmem]
  · rintro ⟨rfl, h⟩
    exact List.mem_filterMap.2 ⟨_, zipIdx_of_active (dueMove_cases h).1, Option.map_eq_some_iff.2 ⟨n, h, rfl⟩⟩

theorem mem_rollMoves_iff {roll : Bool} {s : State} {i : Nat} {l n : SlotState} :
    (i, l, n) ∈ rollMoves roll s ↔ (slotAt s i).forced roll = true ∧ l = (slotAt s i).state ∧ n = .expired := by
  have hforced : ∀ j, j ∈ forcedByRoll s ↔ (slotAt s j).forced true = true := by
    intro j
    simp only [Slot.forced, Bool.true_and, Bool.and_eq_true, decide_eq_true_iff]
    constructor
    · intro h
      obtain ⟨⟨x, k⟩, hmem, hk⟩ := List.mem_filterMap.1 h
      split at hk
      · rename_i hx
        obtain rfl := Option.some.inj hk
        rwa [slotAt_of_zipIdx hmem]
      · cases hk
    · exact fun h => List.mem_filterMap.2 ⟨_, zipIdx_of_active h.1, if_pos h⟩
  unfold rollMoves
  cases roll with
  | false => simp [Slot.forced]
  | true =>
    rw [if_pos rfl, List.mem_map]
    constructor
    · rintro ⟨j, hj, heq⟩
      cases heq
      exact ⟨(hforced i).1 hj, rfl, rfl⟩
    · rintro ⟨h, rfl, rfl⟩
      exact ⟨i, (hforced i).2 h, rfl⟩

theorem expiresIn_iff {moves : List (Nat × SlotState × SlotState)} {i : Nat} :
    expiresIn moves i = true ↔ ∃ l, (i, l, SlotState.expired) ∈ moves := by
  simp only [expiresIn, List.any_eq_true, Bool.and_eq_true, decide_eq_true_iff]
  constructor
  · rintro ⟨⟨j, l, n⟩, hmem, hj, hn⟩
    cases hj
    cases hn
    exact ⟨l, hmem⟩
  · rintro ⟨l, hmem⟩
    exact ⟨_, hmem, rfl, rfl⟩

theorem rolled_frame (roll : Bool) (s : State) : ∃ rows att, rolled roll s =
    { s with slots := s.slots.map (Slot.rolledBy roll), rowMap := rows, att := att } ∧
      rows = if roll then s.rowMap.filter (fun i => ((slotAt s i).rolledBy roll).state.active) else s.rowMap := by
  cases roll with
  | false =>
    have hmap : s.slots.map (Slot.rolledBy false) = s.slots := (List.map_congr_left fun _ _ => rfl).trans (List.map_id _)
    exact ⟨s.rowMap, s.att, by rw [hmap]; rfl, rfl⟩
  | true =>
    have hslot := slotAt_map (Slot.rolledBy true) rfl s
    refine ⟨_, (pend .dayRoll s).att, rfl, ?_⟩
    rw [if_pos rfl]
    exact List.filter_congr fun i _ => congrArg (fun x => x.state.active) (hslot i)

section Second

variable {roll : Bool} {s : State}

theorem slotAt_rolled (i : Nat) : slotAt (rolled roll s) i = (slotAt s i).rolledBy roll := by
  obtain ⟨rows, att, h, -⟩ := rolled_frame roll s
  rw [h]
  exact slotAt_map (Slot.rolledBy roll) (by cases roll <;> rfl) s i

theorem rolledReported_reads (roll : Bool) (s : State) :
    (rolledReported roll s).params = s.params ∧ (rolledReported roll s).clock = s.clock ∧
      (rolledReported roll s).rowMap = (rolled roll s).rowMap := by
  have h := reportMoves_only (rollMoves roll s) (rolled roll s)
  have hparams : (rolledReported roll s).params = (rolled roll s).params := h.same .params
  have hclock : (rolledReported roll s).clock = (rolled roll s).clock := h.same .clock
  obtain ⟨rows, att, hrolled, -⟩ := rolled_frame roll s
  exact ⟨hparams.trans (by rw [hrolled]), hclock.trans (by rw [hrolled]), h.same .rowMap⟩

theorem slotAt_rolledReported (i : Nat) : slotAt (rolledReported roll s) i =
    if expiresIn (rollMoves roll s) i then ((slotAt s i).rolledBy roll).forgotten else (slotAt s i).rolledBy roll := by
  rw [rolledReported, slotAt_reportMoves, slotAt_rolled]

theorem dueMove_forgotten (q : Params) (c : Clock) (x : Slot) : dueMove q c x.forgotten = dueMove q c x := rfl

theorem Slot.advance_forgotten (q : Params) (c : Clock) (x : Slot) : x.forgotten.advance q c = (x.advance q c).forgotten := by
  rw [Slot.advance, Slot.advance, dueMove_forgotten]
  cases dueMove q c x <;> rfl

/-- The moves of a time advance: the forced ones, then those due. -/
theorem mem_moves_iff {i : Nat} {l n : SlotState} :
    (i, l, n) ∈ rollMoves roll s ∨ (i, l, n) ∈ dueMoves (rolledReported roll s) ↔
      l = (slotAt s i).state ∧ n = ((slotAt s i).timed roll s.params s.clock).state ∧ l.active = true ∧ n ≠ l := by
  obtain ⟨hparams, hclock, -⟩ := rolledReported_reads roll s
  have hdue : dueMove s.params s.clock (slotAt (rolledReported roll s) i) =
      dueMove s.params s.clock ((slotAt s i).rolledBy roll) := by
    rw [slotAt_rolledReported]
    split <;> rfl
  have hstate : (slotAt (rolledReported roll s) i).state = ((slotAt s i).rolledBy roll).state := by
    rw [slotAt_rolledReported]
    split <;> rfl
  rw [mem_rollMoves_iff, mem_dueMoves_iff, hparams, hclock, hdue, hstate]
  exact Slot.moves_iff

/-- A slot becomes EXPIRED by one of these moves. -/
theorem expiresIn_moves (i : Nat) : (expiresIn (rollMoves roll s) i || expiresIn (dueMoves (rolledReported roll s)) i) =
    (slotAt s i).outlived roll s.params s.clock := by
  rw [Bool.eq_iff_iff, Bool.or_eq_true, expiresIn_iff, expiresIn_iff, ← exists_or]
  simp only [mem_moves_iff, Slot.outlived, Bool.and_eq_true, decide_eq_true_iff]
  constructor
  · rintro ⟨l, rfl, hn, hactive, -⟩
    exact ⟨hactive, hn.symm⟩
  · rintro ⟨hactive, hn⟩
    exact ⟨_, rfl, hn.symm, hactive, fun h => by rw [← h] at hactive; cases hactive⟩

theorem expiresIn_perm {moves moves' : List (Nat × SlotState × SlotState)} (h : moves.Perm moves') (i : Nat) :
    expiresIn moves i = expiresIn moves' i := by
  rw [Bool.eq_iff_iff, expiresIn_iff, expiresIn_iff]
  simp only [h.mem_iff]

theorem slotAt_moved (i : Nat) : slotAt (moved s) i = (slotAt s i).advance s.params s.clock :=
  slotAt_map _ rfl s i

/-- The moves reported at the second event, from the state in which the moved slots stand. -/
theorem advanceSlots_eq (a : Advance) (hset : s.clock.isSet = true) : ∃ moves n,
    moves.Perm (dueMoves (rolledReported a.roll s)) ∧
      advanceSlots a s = runTimers a.seconds (reportMoves moves { moved (rolledReported a.roll s) with freeCount := n }) := by
  have hclock := (rolledReported_reads a.roll s).2.1
  obtain ⟨moves, n, hperm, heq⟩ := reevaluate_eq (s := rolledReported a.roll s) (by rw [hclock]; exact hset)
  exact ⟨moves, n, hperm, by rw [advanceSlots, rolledReported_eq, heq]⟩

theorem slotAt_advanceSlots (a : Advance) (hset : s.clock.isSet = true) (i : Nat) :
    slotAt (advanceSlots a s) i = (slotAt s i).passed a.roll a.seconds s.params s.clock := by
  obtain ⟨hparams, hclock, -⟩ := rolledReported_reads a.roll s
  obtain ⟨moves, n, hperm, heq⟩ := advanceSlots_eq a hset
  have htimers : ∀ t : State, slotAt (runTimers a.seconds t) i =
      { slotAt t i with highlight := (slotAt t i).highlight.bind (countDown a.seconds) } := fun t =>
    slotAt_map (fun x => { x with highlight := x.highlight.bind (countDown a.seconds) }) rfl
      (mapFootnotes (fun _ n => n.bind fun r => (countDown a.seconds r.left).map fun l => { r with left := l }) t) i
  have hmoved : slotAt { moved (rolledReported a.roll s) with freeCount := n } i =
      if expiresIn (rollMoves a.roll s) i then ((slotAt s i).timed a.roll s.params s.clock).forgotten
      else (slotAt s i).timed a.roll s.params s.clock := by
    refine (slotAt_moved i).trans ?_
    rw [hparams, hclock, slotAt_rolledReported]
    split
    · exact Slot.advance_forgotten ..
    · rfl
  have hslot : slotAt (reportMoves moves { moved (rolledReported a.roll s) with freeCount := n }) i =
      if (slotAt s i).outlived a.roll s.params s.clock then ((slotAt s i).timed a.roll s.params s.clock).forgotten
      else (slotAt s i).timed a.roll s.params s.clock := by
    rw [slotAt_reportMoves, hmoved, ← expiresIn_moves, expiresIn_perm hperm]
    cases expiresIn (rollMoves a.roll s) i <;> cases expiresIn (dueMoves (rolledReported a.roll s)) i <;> rfl
  rw [heq, htimers, hslot]
  rfl

end Second

end Sys2Proof.Machine
end

section
/-! PROOFS. What a time advance makes of slots, row map and footnotes, in the words of the specification
(R32 to R35, R71, R76, R81, R82, R126). -/

namespace Sys2Proof.Machine

set_option Elab.async false

/-- The slot where it is active, with its record and keys. -/
theorem Slot.timed_of_active {roll : Bool} {q : Params} {c : Clock} {x : Slot} {r : Record} {k : Keys}
    (hactive : x.state.active = true) (hr : x.applied = some r) (hk : x.keys = some k) :
    let forced := roll && decide (k.offset = -1)
    let k' : Keys := if roll && !forced then { k with offset := k.offset - 1, ke := k.ke - 1440 } else k
    let due := tableState q c r.cancelled k'.ke
    x.timed roll q c = { x with
      state := if forced then .expired else if x.state.course < due.course then due else x.state
      keys := some k' } := by
  intro forced k' due
  have hforced : x.forced roll = forced := by simp [Slot.forced, hactive, hk, forced]
  cases hf : forced with
  | true =>
    have hkeys : k' = k := by simp [k', hf]
    rw [Slot.timed_of_forced (hforced.trans hf), if_pos rfl, hkeys, ← hk]
  | false =>
    have hrolled : x.rolledBy roll = { x with keys := some k' } := by
      cases roll with
      | false =>
        show x = { x with keys := some k }
        rw [← hk]
      | true =>
        have hoffset : ¬k.offset = -1 := of_decide_eq_false hf
        have hkeys : k' = { k with offset := k.offset - 1, ke := k.ke - 1440 } := by simp [k', hf]
        rw [Slot.rolledBy, if_pos rfl, Slot.rebase, hk, hkeys]
        exact (if_pos hactive).trans (if_neg hoffset)
    have hdue : dueMove q c { x with keys := some k' } =
        if x.state.course < due.course then some due else none := by
      rw [dueMove]
      simp only [hr, hactive, true_and, stateFor_eq]
      rfl
    rw [Slot.timed, hrolled, Slot.advance, hdue, if_neg Bool.false_ne_true]
    by_cases hlater : x.state.course < due.course
    · simp only [if_pos hlater]
    · simp only [if_neg hlater]

theorem Slot.timed_of_not {roll : Bool} {q : Params} {c : Clock} {x : Slot} (h : x.state.active = false) :
    x.timed roll q c = x := by
  have hrolled : x.rolledBy roll = x := by
    unfold Slot.rolledBy Slot.rebase
    cases roll <;> cases x.keys <;> simp [h]
  rw [Slot.timed, hrolled]
  obtain he | ⟨hactive, -⟩ := Slot.advance_cases q c x
  · exact he
  · rw [h] at hactive
    cases hactive

theorem Slot.passed_eq {roll : Bool} {seconds : Nat} {q : Params} {c : Clock} {x : Slot}
    (hfits : x.state.active = true → x.applied.isSome = true ∧ x.keys.isSome = true) :
    x.passed roll seconds q c = x.advanced roll seconds q c := by
  cases hactive : x.state.active with
  | false =>
    rw [Slot.passed, Slot.outlived, hactive, Slot.timed_of_not hactive, Slot.advanced, hactive]
    rfl
  | true =>
    obtain ⟨hrecord, hkeys⟩ := hfits hactive
    obtain ⟨r, hr⟩ := Option.isSome_iff_exists.1 hrecord
    obtain ⟨k, hk⟩ := Option.isSome_iff_exists.1 hkeys
    have htimed := Slot.timed_of_active (roll := roll) (q := q) (c := c) hactive hr hk
    rw [Slot.passed, Slot.outlived, hactive, Bool.true_and, htimed, Slot.advanced, hactive, hr, hk]
    dsimp only
    generalize (if (roll && decide (k.offset = -1)) = true then SlotState.expired else _) = new
    by_cases hexpired : new = .expired
    · rw [if_pos (decide_eq_true hexpired), if_pos hexpired, if_pos hexpired, if_pos hexpired, hexpired, ← hr]
      rfl
    · rw [if_neg (by simpa using hexpired), if_neg hexpired, if_neg hexpired, if_neg hexpired, ← hr]
      rfl

theorem Slot.passed_state (roll : Bool) (seconds : Nat) (q : Params) (c : Clock) (x : Slot) :
    (x.passed roll seconds q c).state = (x.timed roll q c).state ∧
      (x.passed roll seconds q c).applied = (x.timed roll q c).applied ∧
      (x.passed roll seconds q c).keys = (x.timed roll q c).keys := by
  unfold Slot.passed
  split <;> exact ⟨rfl, rfl, rfl⟩

theorem Slot.active_of_timed {roll : Bool} {q : Params} {c : Clock} {x : Slot} (h : (x.timed roll q c).state.active = true) :
    (x.rolledBy roll).state.active = true := Slot.active_of_advance h

/-- A footnote record after seconds have passed (R81). -/
def runFootnote (seconds : Nat) (n : Option Footnote) : Option Footnote :=
  n.bind fun f => (countDown seconds f.left).map fun l => { f with left := l }

theorem footnotes_runTimers (seconds : Nat) (s : State) :
    (runTimers seconds s).footnotes = s.footnotes.map (runFootnote seconds) := by
  have hmap : (runTimers seconds s).footnotes = s.footnotes.zipIdx.map (runFootnote seconds ∘ Prod.fst) := rfl
  rw [hmap, ← List.map_map, List.zipIdx_map_fst]

section Advance

variable {a : Advance} {s : State}

theorem expires_advanceSlots (hset : s.clock.isSet = true) (i : Nat) :
    expires i s (advanceSlots a s) = (slotAt s i).outlived a.roll s.params s.clock := by
  rw [expires, slotAt_advanceSlots a hset, (Slot.passed_state ..).1]
  rfl

theorem rowMap_advanceSlots (hset : s.clock.isSet = true) :
    (advanceSlots a s).rowMap = s.rowMap.filter fun i => (slotAt (advanceSlots a s) i).state.active := by
  obtain ⟨hparams, hclock, hrows⟩ := rolledReported_reads a.roll s
  obtain ⟨moves, n, -, heq⟩ := advanceSlots_eq a hset
  have hactive : ∀ i, (slotAt (moved (rolledReported a.roll s)) i).state.active =
      ((slotAt s i).timed a.roll s.params s.clock).state.active := fun i => by
    rw [slotAt_moved, hparams, hclock, slotAt_rolledReported]
    split
    · exact congrArg (fun x => x.state.active) (Slot.advance_forgotten ..)
    · rfl
  have hmoved : (advanceSlots a s).rowMap = (rolledReported a.roll s).rowMap.filter fun i =>
      ((slotAt s i).timed a.roll s.params s.clock).state.active := by
    have h₁ : (reportMoves moves { moved (rolledReported a.roll s) with freeCount := n }).rowMap =
        (moved (rolledReported a.roll s)).rowMap := (reportMoves_only moves _).same .rowMap
    rw [heq]
    exact h₁.trans (List.filter_congr fun i _ => hactive i)
  simp only [hmoved, slotAt_advanceSlots a hset, (Slot.passed_state ..).1]
  rw [hrows]
  obtain ⟨rows, att, hrolled, hrowsEq⟩ := rolled_frame a.roll s
  have hrolledRows : (rolled a.roll s).rowMap = rows := by rw [hrolled]
  rw [hrolledRows, hrowsEq]
  split
  · rw [List.filter_filter]
    refine List.filter_congr fun i _ => ?_
    cases ht : ((slotAt s i).timed a.roll s.params s.clock).state.active with
    | false => rfl
    | true => exact Slot.active_of_timed ht
  · rfl

theorem footnotes_advanceSlots (hset : s.clock.isSet = true) :
    (advanceSlots a s).footnotes = s.footnotes.map fun n => n.bind fun f =>
      if expires f.slot s (advanceSlots a s) then none
      else (ranDown a.seconds (some f.left)).map fun l => { f with left := l } := by
  obtain ⟨moves, n, hperm, heq⟩ := advanceSlots_eq a hset
  have hrolled : (rolled a.roll s).footnotes = s.footnotes := by
    obtain ⟨rows, att, h, -⟩ := rolled_frame a.roll s
    rw [h]
  have hfirst : (rolledReported a.roll s).footnotes =
      s.footnotes.map fun n => if n.any (fun f => expiresIn (rollMoves a.roll s) f.slot) then none else n :=
    (reportMoves_spec _ _).2.2.trans (by rw [hrolled])
  have hsecond := (reportMoves_spec moves { moved (rolledReported a.roll s) with freeCount := n }).2.2
  have htimers : ∀ t : State, (runTimers a.seconds t).footnotes = t.footnotes.map (runFootnote a.seconds) :=
    fun t => footnotes_runTimers a.seconds t
  have hmoved : (moved (rolledReported a.roll s)).footnotes = (rolledReported a.roll s).footnotes := rfl
  simp only [expires_advanceSlots hset]
  rw [heq, htimers, hsecond, hmoved, hfirst, List.map_map, List.map_map]
  refine congrArg (fun f => s.footnotes.map f) (funext fun n => ?_)
  cases n with
  | none => rfl
  | some f =>
    simp only [Function.comp_apply, ← expiresIn_moves, expiresIn_perm hperm]
    by_cases hroll : expiresIn (rollMoves a.roll s) f.slot = true
    · simp [hroll, runFootnote]
    · by_cases hdue : expiresIn (dueMoves (rolledReported a.roll s)) f.slot = true
      · simp [hroll, hdue, runFootnote]
      · simp [hroll, hdue, runFootnote, countDown, ranDown]

theorem length_advanceSlots (hset : s.clock.isSet = true) : (advanceSlots a s).slots.length = s.slots.length := by
  obtain ⟨moves, n, -, heq⟩ := advanceSlots_eq a hset
  obtain ⟨rows, att, hrolled, -⟩ := rolled_frame a.roll s
  have h₁ : (rolledReported a.roll s).slots.length = s.slots.length :=
    (reportMoves_spec _ _).1.trans (by rw [hrolled]; exact List.length_map _)
  have h₂ := (reportMoves_spec moves { moved (rolledReported a.roll s) with freeCount := n }).1
  rw [heq]
  refine (List.length_map _).trans (h₂.trans ?_)
  exact (List.length_map _).trans h₁

/-- What a time advance makes of slots, row map and footnotes. -/
theorem slotsAdvance_advanceSlots (hset : s.clock.isSet = true) : SlotsAdvance a.roll a.seconds s (advanceSlots a s) := by
  have hclock : (advanceSlots a s).clock = s.clock := (advanceSlots_only a s).same .clock
  refine ⟨length_advanceSlots hset, fun i _ hfits => ?_, rowMap_advanceSlots hset, footnotes_advanceSlots hset⟩
  rw [slotAt_advanceSlots a hset, hclock]
  exact Slot.passed_eq hfits

end Advance

end Sys2Proof.Machine
end

section
/-! PROOFS. The cues of a time advance: the moves reported one after another (R124, R126, R131). -/

namespace Sys2Proof.Machine

set_option Elab.async false

/-! ## What each move does to the cues -/

/-- The record a BOARDING cue of a slot would be made of: the applied one, in its announce window (R72, R124). -/
def boardRecord (s : State) (i : Nat) : Option Record := (slotAt s i).applied.filter fun r => windowOpen s i r

/-- The kinds of cue that a move between these states removes (R124, R126). -/
def dropsKind (l n : SlotState) (k : CueKind) : Bool :=
  decide (n = .expired ∨ n = .departing ∧ (l = .scheduled ∨ l = .boarding) ∧ (k = .delay ∨ k = .boarding))

/-- The moves remove the slot's cues of a kind. -/
def dropsIn (moves : List (Nat × SlotState × SlotState)) (i : Nat) (k : CueKind) : Bool :=
  moves.any fun m => decide (m.1 = i) && dropsKind m.2.1 m.2.2 k

/-- A move that makes a BOARDING cue. -/
def makesCue (board : Nat → Option Record) (m : Nat × SlotState × SlotState) : Bool :=
  decide (m.2.1 = .scheduled ∧ m.2.2 = .boarding) && (board m.1).isSome

/-- The moves make a BOARDING cue of the slot. -/
def boardsIn (board : Nat → Option Record) (moves : List (Nat × SlotState × SlotState)) (i : Nat) : Bool :=
  moves.any fun m => decide (m.1 = i) && makesCue board m

/-- The moves whose cue joins the queue. -/
def joiningMoves (board : Nat → Option Record) (queue : List Cue) (moves : List (Nat × SlotState × SlotState)) :
    List (Nat × SlotState × SlotState) :=
  moves.filter fun m => makesCue board m && (waitingIn m.1 .boarding queue).isNone

/-- The cues after these moves, in a queue with room: those that left, the BOARDING cues made, the messages disowned. -/
structure BoardingCues (board : Nat → Option Record) (moves : List (Nat × SlotState × SlotState))
    (new : Nat → CueKind → Option Cue) (joined : List Cue) (u v : CueUnit) : Prop where
  settles : CuesSettle (dropsIn moves) new (expiresIn moves) joined id u v
  made : ∀ i, boardsIn board moves i = true → ∃ r ∈ board i, ∃ order, new i .boarding = some (madeCue .boarding i r 0 0 0 order)
  others : ∀ i k, ¬(boardsIn board moves i = true ∧ k = .boarding) → new i k = none
  count : joined.length = (joiningMoves board u.queue moves).length

/-- What these moves make of the cues. -/
def MovesSettle (board : Nat → Option Record) (moves : List (Nat × SlotState × SlotState)) (u v : CueUnit) : Prop :=
  ∃ new joined, BoardingCues board moves new joined u v

theorem MovesSettle.nil (board : Nat → Option Record) (u : CueUnit) : MovesSettle board [] u u :=
  ⟨fun _ _ => none, [], .refl u, nofun, fun _ _ _ => rfl, rfl⟩

section Reads

variable {s t : State} {board : Nat → Option Record}

theorem boardRecord_of (happlied : ∀ i, (slotAt t i).applied = (slotAt s i).applied) (hkeys : ∀ i, (slotAt t i).keys = (slotAt s i).keys)
    (hparams : t.params = s.params) (hclock : t.clock = s.clock) : boardRecord t = boardRecord s := by
  funext i
  have hke : keOf t i = keOf s i := by rw [keOf, keOf, hkeys]
  simp only [boardRecord, windowOpen, happlied, hparams, hclock, hke]

theorem slotAt_forget (i j : Nat) (s : State) : (slotAt (forget i s) j).applied = (slotAt s j).applied ∧
    (slotAt (forget i s) j).keys = (slotAt s j).keys := by
  have h := slotAt_reportMoves [(i, .boarding, .expired)] s j
  have hforget : reportMoves [(i, .boarding, .expired)] s = forget i s := rfl
  rw [hforget] at h
  rw [h]
  split <;> exact ⟨rfl, rfl⟩

theorem boardRecord_moveReport (i : Nat) (l n : SlotState) (s : State) : boardRecord (moveReport i l n s) = boardRecord s := by
  by_cases hn : n = .expired
  · subst hn
    rw [moveReport_expired]
    have h := forget_only i s
    exact boardRecord_of (fun j => (slotAt_forget i j s).1) (fun j => (slotAt_forget i j s).2) (h.same .params) (h.same .clock)
  · have h := moveReport_cuesOnly (i := i) (left := l) hn s
    exact boardRecord_of (fun j => by rw [h.slotAt]) (fun j => by rw [h.slotAt]) h.params h.clock

end Reads

section Step

variable {board : Nat → Option Record} {moves : List (Nat × SlotState × SlotState)} {u : CueUnit} {s : State}

theorem dropsIn_of_not_mem {i : Nat} (h : ∀ m ∈ moves, m.1 ≠ i) (k : CueKind) : dropsIn moves i k = false :=
  List.any_eq_false.2 fun m hm => by simp [h m hm]

theorem boardsIn_of_not_mem {i : Nat} (h : ∀ m ∈ moves, m.1 ≠ i) : ¬boardsIn board moves i = true := by
  rw [Bool.not_eq_true]
  exact List.any_eq_false.2 fun m hm => by simp [h m hm]

theorem dropsIn_snoc (moves : List (Nat × SlotState × SlotState)) (i : Nat) (l n : SlotState) :
    dropsIn (moves ++ [(i, l, n)]) = fun j k => dropsIn moves j k || onSlot i (dropsKind l n) j k := by
  funext j k
  simp only [dropsIn, List.any_append, List.any_cons, List.any_nil, Bool.or_false, onSlot, eq_comm (a := i)]

theorem boardsIn_snoc (moves : List (Nat × SlotState × SlotState)) (m : Nat × SlotState × SlotState) (j : Nat) :
    boardsIn board (moves ++ [m]) j = (boardsIn board moves j || (decide (m.1 = j) && makesCue board m)) := by
  simp only [boardsIn, List.any_append, List.any_cons, List.any_nil, Bool.or_false]

theorem expiresIn_snoc (moves : List (Nat × SlotState × SlotState)) (i : Nat) (l n : SlotState) :
    expiresIn (moves ++ [(i, l, n)]) = fun j => expiresIn moves j || (decide (j = i) && decide (n = .expired)) := by
  funext j
  simp only [expiresIn, List.any_append, List.any_cons, List.any_nil, Bool.or_false, eq_comm (a := i)]

theorem joiningMoves_snoc (queue : List Cue) (moves : List (Nat × SlotState × SlotState)) (m : Nat × SlotState × SlotState) :
    joiningMoves board queue (moves ++ [m]) = joiningMoves board queue moves ++
      if makesCue board m && (waitingIn m.1 .boarding queue).isNone then [m] else [] := by
  rw [joiningMoves, List.filter_append, List.filter_singleton, Bool.cond_eq_ite]
  rfl

/-- A move that makes no cue. -/
theorem MovesSettle.without {i : Nat} {l n : SlotState} {v w : CueUnit} (h : MovesSettle board moves u v)
    (hmakes : makesCue board (i, l, n) = false)
    (hsettles : ∀ new joined, CuesSettle (dropsIn moves) new (expiresIn moves) joined id u v → (∀ k, new i k = none) →
      CuesSettle (dropsIn (moves ++ [(i, l, n)])) new (expiresIn (moves ++ [(i, l, n)])) joined id u w)
    (hfresh : ∀ m ∈ moves, m.1 ≠ i) : MovesSettle board (moves ++ [(i, l, n)]) u w := by
  obtain ⟨new, joined, h⟩ := h
  have hsame : ∀ j, boardsIn board (moves ++ [(i, l, n)]) j = boardsIn board moves j := fun j => by
    rw [boardsIn_snoc, hmakes, Bool.and_false, Bool.or_false]
  refine ⟨new, joined, hsettles new joined h.settles fun k => h.others i k fun hb => boardsIn_of_not_mem hfresh hb.1, ?_, ?_, ?_⟩
  · intro j hj
    exact h.made j (by rwa [hsame] at hj)
  · intro j k hj
    exact h.others j k (by rwa [hsame] at hj)
  · rw [joiningMoves_snoc, hmakes, Bool.false_and, if_neg Bool.false_ne_true, List.append_nil]
    exact h.count

theorem cues_forget (i : Nat) (s : State) : (forget i s).cues = { s.cues.remove (ofSlot i) with
    msg := (s.cues.remove (ofSlot i)).msg.map fun m => if m.cue.slot = some i then { m with gone := true } else m } := rfl

/-- A move to EXPIRED (R126). -/
theorem MovesSettle.expires {i : Nat} {l : SlotState} (h : MovesSettle board moves u s.cues) (hfresh : ∀ m ∈ moves, m.1 ≠ i) :
    MovesSettle board (moves ++ [(i, l, .expired)]) u (forget i s).cues := by
  refine h.without (by simp [makesCue]) (fun new joined hs hnone => ?_) hfresh
  have hall : dropsKind l .expired = fun _ => true := funext fun k => by simp [dropsKind]
  have hgone : (fun j => expiresIn moves j || (decide (j = i) && decide (SlotState.expired = .expired))) =
      fun j => expiresIn moves j || decide (j = i) := funext fun j => by simp
  have hremoved := (hs.remove (test := onSlot i fun _ => true) fun j k hk => by
    obtain ⟨hj, -⟩ := Bool.and_eq_true_iff.1 hk
    rw [of_decide_eq_true hj, hnone]).disown i
  rw [dropsIn_snoc, expiresIn_snoc, hall, hgone, cues_forget, ← keyed_all]
  exact hremoved

/-- A move to DEPARTING (R124). -/
theorem MovesSettle.departs {i : Nat} {l : SlotState} (h : MovesSettle board moves u s.cues) (hl : l = .scheduled ∨ l = .boarding)
    (hfresh : ∀ m ∈ moves, m.1 ≠ i) : MovesSettle board (moves ++ [(i, l, .departing)]) u
      (removeCues (fun c => ofKind .delay i c || ofKind .boarding i c) s).cues := by
  refine h.without (by simp [makesCue]) (fun new joined hs hnone => ?_) hfresh
  have hkeyed : (fun c => ofKind .delay i c || ofKind .boarding i c) = Cue.keyed (onSlot i (dropsKind l .departing)) := funext fun c => by
    rw [keyed_onSlot, dropsKind, Bool.eq_iff_iff]
    simp [ofKind, ofSlot, hl, and_or_left]
  have hgone : (fun j => expiresIn moves j || (decide (j = i) && decide (SlotState.departing = .expired))) = expiresIn moves :=
    funext fun j => by simp
  have hremoved := hs.remove (test := onSlot i (dropsKind l .departing)) fun j k hk => by
    obtain ⟨hj, -⟩ := Bool.and_eq_true_iff.1 hk
    rw [of_decide_eq_true hj, hnone]
  rw [dropsIn_snoc, expiresIn_snoc, hgone, hkeyed]
  exact hremoved

/-- A move that touches no cue. -/
theorem MovesSettle.leaves {i : Nat} {l n : SlotState} {v : CueUnit} (h : MovesSettle board moves u v) (hmakes : makesCue board (i, l, n) = false)
    (hdrops : ∀ k, dropsKind l n k = false) (hfresh : ∀ m ∈ moves, m.1 ≠ i) : MovesSettle board (moves ++ [(i, l, n)]) u v := by
  refine h.without hmakes (fun new joined hs _ => ?_) hfresh
  have hn : n ≠ .expired := fun hn => by
    have := hdrops .delay
    simp [dropsKind, hn] at this
  have hgone : (fun j => expiresIn moves j || (decide (j = i) && decide (n = .expired))) = expiresIn moves :=
    funext fun j => by simp [hn]
  have hdropped : (fun j k => dropsIn moves j k || onSlot i (dropsKind l n) j k) = dropsIn moves :=
    funext fun j => funext fun k => by simp [onSlot, hdrops]
  rw [dropsIn_snoc, expiresIn_snoc, hgone, hdropped]
  exact hs

/-- A move to BOARDING in the announce window (R124). -/
theorem MovesSettle.boards {i : Nat} {r : Record} (h : MovesSettle board moves u s.cues) (hr : board i = some r)
    (hfresh : ∀ m ∈ moves, m.1 ≠ i)
    (hroom : u.queue.length + (joiningMoves board u.queue (moves ++ [(i, .scheduled, .boarding)])).length ≤ 16) :
    MovesSettle board (moves ++ [(i, .scheduled, .boarding)]) u (makeCue (slotCue .boarding i r 0) s).cues := by
  obtain ⟨new, joined, h⟩ := h
  have hmakes : makesCue board (i, .scheduled, .boarding) = true := by simp [makesCue, hr]
  have hlength : (joiningMoves board u.queue (moves ++ [(i, .scheduled, .boarding)])).length =
      joined.length + if (waitingIn i .boarding u.queue).isNone then 1 else 0 := by
    rw [joiningMoves_snoc, hmakes, Bool.true_and, List.length_append, ← h.count]
    split <;> rfl
  have hplaced := (h.settles.place (i := i) (k := .boarding) (c := slotCue .boarding i r 0) rfl rfl
    (dropsIn_of_not_mem hfresh _) (h.others i _ fun hb => boardsIn_of_not_mem hfresh hb.1) fun hnone => by
      rw [hlength, if_pos hnone] at hroom
      have := h.settles.length_le
      omega).1
  have hcue : ({ slotCue .boarding i r 0 with order := s.cues.next } : Cue) = madeCue .boarding i r 0 0 0 s.cues.next := rfl
  rw [hcue] at hplaced
  have hdropped : (fun j k => dropsIn moves j k || onSlot i (dropsKind .scheduled .boarding) j k) = dropsIn moves :=
    funext fun j => funext fun k => by simp [onSlot, dropsKind]
  have hgone : (fun j => expiresIn moves j || (decide (j = i) && decide (SlotState.boarding = .expired))) = expiresIn moves :=
    funext fun j => by simp
  have hboards : ∀ j, boardsIn board (moves ++ [(i, .scheduled, .boarding)]) j = (boardsIn board moves j || decide (i = j)) :=
    fun j => by rw [boardsIn_snoc, hmakes, Bool.and_true]
  refine ⟨_, _, .mk (by rw [dropsIn_snoc, expiresIn_snoc, hdropped, hgone]; exact hplaced) (fun j hj => ?_) (fun j k hj => ?_) ?_⟩
  · rw [hboards] at hj
    by_cases hji : i = j
    · subst hji
      exact ⟨r, hr, s.cues.next, withMade_same ..⟩
    · obtain ⟨r', hr', order, hnew⟩ := h.made j (by simpa [hji] using hj)
      exact ⟨r', hr', order, (if_neg (by simp [isKey, Ne.symm hji])).trans hnew⟩
  · rw [hboards] at hj
    have hkey : ¬(j = i ∧ k = .boarding) := fun ⟨hji, hk⟩ => hj ⟨by simp [hji], hk⟩
    exact (if_neg (by simpa [isKey] using hkey)).trans (h.others j k fun ⟨hb, hk⟩ => hj ⟨by rw [hb]; rfl, hk⟩)
  · rw [hlength, List.length_append]
    split <;> rfl

/-- One more move, of a slot that has not moved yet. -/
theorem MovesSettle.snoc {i : Nat} {l n : SlotState} (h : MovesSettle board moves u s.cues) (hboard : boardRecord s = board)
    (hfresh : ∀ m ∈ moves, m.1 ≠ i)
    (hroom : u.queue.length + (joiningMoves board u.queue (moves ++ [(i, l, n)])).length ≤ 16) :
    MovesSettle board (moves ++ [(i, l, n)]) u (moveReport i l n s).cues := by
  unfold moveReport
  split
  · cases hr : boardRecord s i with
    | none =>
      have hnone : makesCue board (i, .scheduled, .boarding) = false := by simp [makesCue, ← hboard, hr]
      have hstays := h.leaves (i := i) hnone (fun k => by simp [dropsKind]) hfresh
      cases happlied : (slotAt s i).applied with
      | none => exact hstays
      | some r =>
        have hclosed : ¬windowOpen s i r = true := fun hopen => by simp [boardRecord, happlied, hopen] at hr
        simp only [if_neg hclosed]
        exact hstays
    | some r =>
      obtain ⟨happlied, hopen⟩ := Option.filter_eq_some_iff.1 hr
      simp only [happlied, if_pos hopen]
      exact h.boards (by rw [← hboard]; exact hr) hfresh hroom
  · exact h.departs (.inl rfl) hfresh
  · exact h.departs (.inr rfl) hfresh
  · exact h.expires hfresh
  · rename_i hexpires hboards hdeparts hdeparts'
    refine h.leaves ?_ (fun k => ?_) hfresh
    · have hnot : ¬(l = .scheduled ∧ n = .boarding) := fun ⟨hl, hn⟩ => hboards hl hn
      simp [makesCue, hnot]
    · have hnot : ¬(n = .expired ∨ n = .departing ∧ (l = .scheduled ∨ l = .boarding) ∧ (k = .delay ∨ k = .boarding)) := by
        rintro (hn | ⟨hn, hl | hl, -⟩)
        · exact hexpires hn
        · exact hdeparts hl hn
        · exact hdeparts' hl hn
      exact decide_eq_false hnot

/-- Moves of different slots, reported one after another. -/
theorem MovesSettle.reports (more : List (Nat × SlotState × SlotState)) (h : MovesSettle board moves u s.cues)
    (hboard : boardRecord s = board) (hfresh : ((moves ++ more).map (·.1)).Nodup)
    (hroom : u.queue.length + (joiningMoves board u.queue (moves ++ more)).length ≤ 16) :
    MovesSettle board (moves ++ more) u (reportMoves more s).cues := by
  induction more generalizing moves s with
  | nil =>
    rw [List.append_nil]
    exact h
  | cons m rest ih =>
    obtain ⟨i, l, n⟩ := m
    have happend : moves ++ (i, l, n) :: rest = (moves ++ [(i, l, n)]) ++ rest := by simp
    rw [happend] at hfresh hroom ⊢
    have hnot : ∀ m ∈ moves, m.1 ≠ i := fun m hm he => by
      rw [List.map_append, List.map_append, List.append_assoc, List.nodup_append'] at hfresh
      exact hfresh.2.2 (List.mem_map_of_mem hm) (by simp [he])
    have hfits : u.queue.length + (joiningMoves board u.queue (moves ++ [(i, l, n)])).length ≤ 16 := by
      have hle : (joiningMoves board u.queue (moves ++ [(i, l, n)])).length ≤
          (joiningMoves board u.queue ((moves ++ [(i, l, n)]) ++ rest)).length := by
        rw [joiningMoves, joiningMoves, List.filter_append (l₁ := moves ++ _), List.length_append]
        exact Nat.le_add_right ..
      omega
    exact ih (s := moveReport i l n s) (h.snoc hboard hnot hfits) ((boardRecord_moveReport i l n s).trans hboard) hfresh hroom

end Step

end Sys2Proof.Machine
end

section
/-! PROOFS. The cues of a time advance, in the words of the specification (R124, R126, R131, R133, R136). -/

namespace Sys2Proof.Machine

set_option Elab.async false

/-! ## The moves between two states -/

/-- These are the moves of the active slots from `s` to `t`, one for each slot whose state differs. -/
def MovesBetween (moves : List (Nat × SlotState × SlotState)) (s t : State) : Prop :=
  (moves.map (·.1)).Nodup ∧
    ∀ i l n, (i, l, n) ∈ moves ↔ l = (slotAt s i).state ∧ n = (slotAt t i).state ∧ l.active = true ∧ n ≠ l

/-- Slot i is SCHEDULED in `s` and BOARDING in `t`, in its announce window (R124). -/
def boardsAt (s t : State) (i : Nat) : Bool :=
  decide ((slotAt s i).state = .scheduled ∧ (slotAt t i).state = .boarding) && (boardRecord t i).isSome

/-- Slot i reaches DEPARTING (R124). -/
def departsAt (s t : State) (i : Nat) : Bool :=
  decide (((slotAt s i).state = .scheduled ∨ (slotAt s i).state = .boarding) ∧ (slotAt t i).state = .departing)

/-- The slots whose BOARDING cue joins the queue. -/
def newBoarding (s t : State) : List Nat :=
  (List.range s.slots.length).filter fun i => boardsAt s t i && (waiting i .boarding s).isNone

theorem lt_length_of_active {s : State} {i : Nat} (h : (slotAt s i).state.active = true) : i < s.slots.length := by
  by_contra hi
  rw [slotAt_of_le (Nat.not_lt.1 hi)] at h
  cases h

section Moves

variable {moves : List (Nat × SlotState × SlotState)} {s t : State}

theorem MovesBetween.any (h : MovesBetween moves s t) (i : Nat) (test : SlotState → SlotState → Bool) :
    (moves.any fun m => decide (m.1 = i) && test m.2.1 m.2.2) = true ↔ test (slotAt s i).state (slotAt t i).state = true ∧
      (slotAt s i).state.active = true ∧ (slotAt t i).state ≠ (slotAt s i).state := by
  simp only [List.any_eq_true, Bool.and_eq_true, decide_eq_true_iff]
  constructor
  · rintro ⟨⟨j, l, n⟩, hmem, rfl, htest⟩
    obtain ⟨rfl, rfl, hactive, hne⟩ := (h.2 ..).1 hmem
    exact ⟨htest, hactive, hne⟩
  · rintro ⟨htest, hactive, hne⟩
    exact ⟨(i, _, _), (h.2 ..).2 ⟨rfl, rfl, hactive, hne⟩, rfl, htest⟩

theorem MovesBetween.expires (h : MovesBetween moves s t) (i : Nat) : expiresIn moves i = Machine.expires i s t := by
  rw [Bool.eq_iff_iff, expiresIn, h.any i fun _ n => decide (n = .expired), Machine.expires, Bool.and_eq_true, decide_eq_true_iff]
  constructor
  · exact fun ⟨hn, hactive, _⟩ => ⟨hactive, hn⟩
  · exact fun ⟨hactive, hn⟩ => ⟨hn, hactive, fun he => by rw [← he, hn] at hactive; cases hactive⟩

theorem MovesBetween.drops (h : MovesBetween moves s t) (i : Nat) (k : CueKind) :
    dropsIn moves i k = (Machine.expires i s t || departsAt s t i && decide (k = .delay ∨ k = .boarding)) := by
  rw [Bool.eq_iff_iff, dropsIn, h.any i fun l n => dropsKind l n k]
  simp only [dropsKind, Machine.expires, departsAt, Bool.or_eq_true, Bool.and_eq_true, decide_eq_true_iff]
  constructor
  · rintro ⟨hn | ⟨hn, hl, hk⟩, hactive, -⟩
    · exact .inl ⟨hactive, hn⟩
    · exact .inr ⟨⟨hl, hn⟩, hk⟩
  · rintro (⟨hactive, hn⟩ | ⟨⟨hl, hn⟩, hk⟩)
    · exact ⟨.inl hn, hactive, fun he => by rw [← he, hn] at hactive; cases hactive⟩
    · refine ⟨.inr ⟨hn, hl, hk⟩, ?_, ?_⟩
      · rcases hl with hl | hl <;> rw [hl] <;> rfl
      · rcases hl with hl | hl <;> rw [hl, hn] <;> decide

theorem MovesBetween.boards (h : MovesBetween moves s t) (i : Nat) : boardsIn (boardRecord t) moves i = boardsAt s t i := by
  have hany : boardsIn (boardRecord t) moves i =
      moves.any fun m => decide (m.1 = i) && (decide (m.2.1 = .scheduled ∧ m.2.2 = .boarding) && (boardRecord t i).isSome) := by
    refine congrArg (fun f => moves.any f) (funext fun m => ?_)
    by_cases hm : m.1 = i
    · rw [makesCue, hm]
    · rw [decide_eq_false hm, Bool.false_and, Bool.false_and]
  rw [hany, Bool.eq_iff_iff, h.any i fun l n => decide (l = .scheduled ∧ n = .boarding) && (boardRecord t i).isSome]
  refine ⟨fun ⟨htest, _, _⟩ => htest, fun htest => ⟨htest, ?_⟩⟩
  obtain ⟨hl, hn⟩ := of_decide_eq_true (Bool.and_eq_true_iff.1 htest).1
  rw [hl, hn]
  exact ⟨rfl, by decide⟩

/-- As many moves as slots make a cue that joins. -/
theorem MovesBetween.joining (h : MovesBetween moves s t) :
    (joiningMoves (boardRecord t) s.cues.queue moves).length = (newBoarding s t).length := by
  have hsub : ((joiningMoves (boardRecord t) s.cues.queue moves).map (·.1)).Nodup :=
    h.1.sublist (List.filter_sublist.map _)
  have hperm : ((joiningMoves (boardRecord t) s.cues.queue moves).map (·.1)).Perm (newBoarding s t) := by
    refine (List.perm_ext_iff_of_nodup hsub (List.nodup_range.filter _)).2 fun i => ?_
    have hboards : (∃ m ∈ moves, m.1 = i ∧ makesCue (boardRecord t) m = true) ↔ boardsAt s t i = true := by
      rw [← h.boards i, boardsIn, List.any_eq_true]
      simp only [Bool.and_eq_true, decide_eq_true_iff]
    simp only [joiningMoves, List.mem_map, List.mem_filter, List.mem_range, Bool.and_eq_true, ← hboards, waiting_eq]
    constructor
    · rintro ⟨m, ⟨hmem, hmakes, hnone⟩, rfl⟩
      obtain ⟨hl, -, hactive, -⟩ := (h.2 m.1 m.2.1 m.2.2).1 hmem
      exact ⟨lt_length_of_active (by rwa [← hl]), ⟨m, hmem, rfl, hmakes⟩, hnone⟩
    · rintro ⟨-, ⟨m, hmem, rfl, hmakes⟩, hnone⟩
      exact ⟨m, ⟨hmem, hmakes, hnone⟩, rfl⟩
  rw [← hperm.length_eq, List.length_map]

end Moves

/-! ## What the cues come to -/

section Cues

variable {moves : List (Nat × SlotState × SlotState)} {new : Nat → CueKind → Option Cue} {joined : List Cue} {s t : State}

/-- A new BOARDING cue waits in `t`, and is one of those that joined. -/
theorem BoardingCues.boarding (h : BoardingCues (boardRecord t) moves new joined s.cues t.cues) (hmoves : MovesBetween moves s t)
    {i : Nat} (hboards : boardsAt s t i = true) :
    ∃ r ∈ (slotAt t i).applied, ∃ c, waiting i .boarding t = some c ∧
      c = inPlaceOf (waiting i .boarding s) (madeCue .boarding i r 0 0 0 c.order) ∧
      ((waiting i .boarding s).isNone = true → c ∈ joined) := by
  obtain ⟨r, hr, order, hnew⟩ := h.made i (by rw [hmoves.boards, hboards])
  obtain ⟨happlied, -⟩ := Option.filter_eq_some_iff.1 hr
  obtain ⟨hdropped, -, -⟩ := h.settles.made i .boarding _ hnew
  have hwaits : waiting i .boarding t = some (inPlaceOf (waiting i .boarding s) (madeCue .boarding i r 0 0 0 order)) := by
    rw [waiting_eq, h.settles.waiting, hdropped, hnew, Option.map_id]
    rfl
  refine ⟨r, happlied, _, hwaits, ?_, fun hnone => ?_⟩
  · cases hold : waiting i .boarding s <;> rfl
  · have hfound := h.settles.found i .boarding
    rw [← waiting_eq, hnone, if_pos rfl, hnew] at hfound
    obtain ⟨hmem, -⟩ := waitingIn_some hfound
    rw [Option.isNone_iff_eq_none.1 hnone]
    exact hmem

/-- The enqueue orders of the cues that joined are the next ones. -/
theorem CuesSettle.order_lt {dropped : Nat → CueKind → Bool} {gone : Nat → Bool} {after : Cue → Cue} {u v : CueUnit}
    (h : CuesSettle dropped new gone joined after u v) {c : Cue} (hc : c ∈ joined) : (c.order - u.next).toNat < joined.length := by
  have hmem : c.order ∈ joined.map (·.order) := List.mem_map_of_mem hc
  rw [h.orders] at hmem
  obtain ⟨n, hn, horder⟩ := List.mem_map.1 hmem
  have hsub : c.order - u.next = BitVec.ofNat 32 n := by
    rw [← horder, BitVec.add_comm]
    exact BitVec.add_sub_cancel ..
  rw [hsub, BitVec.toNat_ofNat]
  exact Nat.lt_of_le_of_lt (Nat.mod_le _ _) (List.mem_range.1 hn)

theorem CuesSettle.orders_nodup {dropped : Nat → CueKind → Bool} {gone : Nat → Bool} {after : Cue → Cue} {u v : CueUnit}
    (h : CuesSettle dropped new gone joined after u v) (hlength : joined.length ≤ 16) : (joined.map (·.order)).Nodup := by
  rw [h.orders]
  refine List.Nodup.map_on (fun m hm n hn he => ?_) List.nodup_range
  have hm' := List.mem_range.1 hm
  have hn' := List.mem_range.1 hn
  have hofNat : BitVec.ofNat 32 m = BitVec.ofNat 32 n := by
    have := congrArg (· - u.next) he
    simpa [BitVec.add_comm u.next, BitVec.add_sub_cancel] using this
  have := congrArg BitVec.toNat hofNat
  simp only [BitVec.toNat_ofNat] at this
  omega

theorem BoardingCues.orders (h : BoardingCues (boardRecord t) moves new joined s.cues t.cues) (hmoves : MovesBetween moves s t)
    (hlength : (newBoarding s t).length ≤ 16) : ((newBoarding s t).map fun i => (waiting i .boarding t).map (·.order)).Nodup := by
  have hnodup := h.settles.orders_nodup (by rw [h.count, hmoves.joining]; exact hlength)
  refine List.Nodup.map_on (fun i hi j hj he => ?_) (List.nodup_range.filter _)
  obtain ⟨hboards, hnone⟩ := Bool.and_eq_true_iff.1 (List.mem_filter.1 hi).2
  obtain ⟨hboards', hnone'⟩ := Bool.and_eq_true_iff.1 (List.mem_filter.1 hj).2
  obtain ⟨r, -, c, hc, -, hmem⟩ := h.boarding hmoves hboards
  obtain ⟨r', -, c', hc', -, hmem'⟩ := h.boarding hmoves hboards'
  rw [hc, hc'] at he
  have hsame : c = c' := List.inj_on_of_nodup_map hnodup (hmem hnone) (hmem' hnone') (Option.some.inj he)
  obtain ⟨-, hslot, -⟩ := waitingIn_some hc
  obtain ⟨-, hslot', -⟩ := waitingIn_some hc'
  rw [hsame, hslot'] at hslot
  exact (Option.some.inj hslot).symm

theorem BoardingCues.condition (h : BoardingCues (boardRecord t) moves new joined s.cues t.cues) (hmoves : MovesBetween moves s t)
    (m : Message) : conditionAfter (dropsIn moves) new s.cues.queue m =
      match s.cues.queue.find? (fun c => decide (c.order = m.cue.order)) with
      | some e =>
        match e.slot with
        | some i =>
          if m.condition = .removed then .removed
          else if expires i s t || departsAt s t i && decide (e.kind = .delay ∨ e.kind = .boarding) then .removed
          else if boardsAt s t i && decide (e.kind = .boarding) then .replaced
          else m.condition
        | none => m.condition
      | none => m.condition := by
  unfold conditionAfter
  cases hf : s.cues.queue.find? fun c => decide (c.order = m.cue.order) with
  | none => rfl
  | some e =>
    cases hs : e.slot with
    | none =>
      by_cases hm : m.condition = .removed
      · simp [hs, hm]
      · simp [hs, hm, Cue.keyed, Cue.madeFor]
    | some i =>
      have hmade : (new i e.kind).isSome = (boardsAt s t i && decide (e.kind = .boarding)) := by
        cases hb : boardsAt s t i with
        | false =>
          rw [h.others i e.kind fun ⟨hb', _⟩ => by rw [hmoves.boards, hb] at hb'; cases hb']
          rfl
        | true =>
          by_cases hk : e.kind = .boarding
          · obtain ⟨r, -, order, hnew⟩ := h.made i (by rw [hmoves.boards, hb])
            rw [hk, hnew]
            rfl
          · rw [h.others i e.kind fun ⟨_, hk'⟩ => hk hk', decide_eq_false hk]
            rfl
      simp only [hs, keyed_of_slot hs, madeFor_of_slot hs, hmoves.drops, hmade]

end Cues

end Sys2Proof.Machine
end

section
/-! PROOFS. What a time advance makes of the cues (R124, R126, R131, R133, R136). -/

namespace Sys2Proof.Machine

set_option Elab.async false

section Cues

variable {moves : List (Nat × SlotState × SlotState)} {s t : State}

theorem boardsAt_eq (hparams : t.params = s.params)
    (hkeys : ∀ i, (slotAt s i).state = .scheduled → (slotAt t i).state = .boarding → (slotAt t i).keys.isSome = true) (i : Nat) :
    boardsAt s t i = (decide ((slotAt s i).state = .scheduled ∧ (slotAt t i).state = .boarding) &&
      match (slotAt t i).applied, (slotAt t i).keys with
      | some r, some k => windowAt s.params t.clock r k.ke
      | _, _ => false) := by
  unfold boardsAt
  by_cases hmove : (slotAt s i).state = .scheduled ∧ (slotAt t i).state = .boarding
  · rw [decide_eq_true hmove, Bool.true_and, Bool.true_and]
    obtain ⟨k, hk⟩ := Option.isSome_iff_exists.1 (hkeys i hmove.1 hmove.2)
    have hke : keOf t i = k.ke := by
      rw [keOf, hk]
      rfl
    cases hr : (slotAt t i).applied with
    | none => simp [boardRecord, hr]
    | some r =>
      simp only [boardRecord, hr, hk, windowOpen, hke, hparams, announceOpen_eq]
      cases hw : windowAt s.params t.clock r k.ke <;> simp [Option.filter, hw]
  · rw [decide_eq_false hmove, Bool.false_and, Bool.false_and]

/-- The cues after the moves from `s` to `t`. -/
theorem cuesAdvance_of_moves (hmoves : MovesBetween moves s t) (hparams : t.params = s.params)
    (hkeys : ∀ i, (slotAt s i).state = .scheduled → (slotAt t i).state = .boarding → (slotAt t i).keys.isSome = true)
    (hsettle : s.cues.queue.length + (newBoarding s t).length ≤ 16 → MovesSettle (boardRecord t) moves s.cues t.cues) :
    CuesAdvance s t := by
  unfold CuesAdvance
  intro slots boards departs new hroom
  have hboards : ∀ i, boards i = boardsAt s t i := fun i => ((boardsAt_eq hparams hkeys i).trans rfl).symm
  have hdeparts : ∀ i, departs i = departsAt s t i := fun _ => rfl
  have hnew : new = newBoarding s t := List.filter_congr fun i _ => by rw [hboards]
  clear_value new boards departs
  subst hnew
  obtain ⟨made, joined, h⟩ := hsettle hroom
  have hcount : joined.length = (newBoarding s t).length := h.count.trans hmoves.joining
  have hlength : (newBoarding s t).length ≤ 16 := by omega
  simp only [hboards, hdeparts]
  refine ⟨fun i _ k _ => ?_, h.orders hmoves hlength, by rw [← hcount]; exact h.settles.next, ?_, fun hnodup => ?_⟩
  · have hwaiting := h.settles.waiting i k
    rw [← waiting_eq, ← waiting_eq, hmoves.drops, Option.map_id] at hwaiting
    by_cases hdrops : (expires i s t || departsAt s t i && decide (k = .delay ∨ k = .boarding)) = true
    · rw [if_pos hdrops] at hwaiting ⊢
      exact hwaiting
    · rw [if_neg hdrops] at hwaiting ⊢
      by_cases hmade : (boardsAt s t i && decide (k = .boarding)) = true
      · rw [if_pos hmade]
        obtain ⟨r, hr, c, hc, heq, hmem⟩ := h.boarding hmoves (Bool.and_eq_true_iff.1 hmade).1
        exact ⟨r, hr, c, hc, heq, fun hnone => hcount ▸ h.settles.order_lt (hmem hnone)⟩
      · rw [if_neg hmade]
        rw [h.others i k fun ⟨hb, hk⟩ => hmade (by rw [← hmoves.boards, hb, hk]; rfl)] at hwaiting
        exact hwaiting
  · refine h.settles.elsewhere (fun c c' hslot => by rw [hslot]) (fun c _ hslot => ?_) fun c hc => ?_
    · have hslot' := Option.isNone_iff_eq_none.1 hslot
      exact ⟨by rw [Cue.keyed, hslot']; rfl, by rw [Cue.madeFor, hslot']; rfl, rfl⟩
    · have hsome := h.settles.slots c hc
      cases hs : c.slot with
      | none =>
        rw [hs] at hsome
        cases hsome
      | some i => rfl
  · rw [h.settles.msg hnodup]
    refine congrArg (fun f => s.cues.msg.map f) (funext fun m => ?_)
    have hgone : (m.cue.slot.any fun i => expires i s t) = m.cue.slot.any (expiresIn moves) := by
      cases m.cue.slot with
      | none => rfl
      | some i => exact (hmoves.expires i).symm
    rw [hgone]
    exact congrArg (fun c => { m with condition := c, gone := m.gone || m.cue.slot.any (expiresIn moves) })
      ((h.condition hmoves m).trans rfl)

end Cues

/-! ## The moves of a time advance -/

section Advance

variable {a : Advance} {s : State}

theorem zipIdx_filterMap_nodup {α β : Type} (l : List α) (f : α × Nat → Option (Nat × β)) (hf : ∀ e m, f e = some m → m.1 = e.2) :
    ((l.zipIdx.filterMap f).map (·.1)).Nodup := by
  have hindices : l.zipIdx.Pairwise fun e e' => e.2 ≠ e'.2 := by
    rw [← List.pairwise_map, List.zipIdx_map_snd]
    exact List.nodup_range' ..
  rw [List.Nodup, List.pairwise_map, List.pairwise_filterMap]
  refine hindices.imp fun {e e'} hne m hm m' hm' => ?_
  rw [hf e m hm, hf e' m' hm']
  exact hne

theorem dueMoves_nodup (s : State) : ((dueMoves s).map (·.1)).Nodup :=
  zipIdx_filterMap_nodup s.slots (fun e => (dueMove s.params s.clock e.1).map fun n => (e.2, e.1.state, n)) fun e m hm => by
    obtain ⟨n, -, rfl⟩ := Option.map_eq_some_iff.1 hm
    rfl

theorem rollMoves_nodup (roll : Bool) (s : State) : ((rollMoves roll s).map (·.1)).Nodup := by
  unfold rollMoves
  split
  · rw [List.map_map]
    have hforced := zipIdx_filterMap_nodup s.slots (fun e =>
      if e.1.state.active ∧ (e.1.keys.map (·.offset)) = some (-1) then some (e.2, ()) else none) fun e m hm => by
        split at hm <;> cases hm
        rfl
    have heq : forcedByRoll s = (s.slots.zipIdx.filterMap fun e =>
        if e.1.state.active ∧ (e.1.keys.map (·.offset)) = some (-1) then some (e.2, ()) else none).map (·.1) := by
      rw [forcedByRoll, List.map_filterMap]
      refine List.filterMap_congr fun e _ => ?_
      split <;> rfl
    rw [← heq] at hforced
    exact ((List.map_congr_left fun _ _ => rfl).trans (List.map_id _)).symm ▸ hforced
  · exact .nil

theorem movesBetween_advanceSlots (hset : s.clock.isSet = true) {moves : List (Nat × SlotState × SlotState)}
    (hperm : moves.Perm (dueMoves (rolledReported a.roll s))) :
    MovesBetween (rollMoves a.roll s ++ moves) s (advanceSlots a s) := by
  have hmem : ∀ i l n, (i, l, n) ∈ rollMoves a.roll s ++ moves ↔
      l = (slotAt s i).state ∧ n = ((slotAt s i).timed a.roll s.params s.clock).state ∧ l.active = true ∧ n ≠ l := fun i l n => by
    rw [List.mem_append, hperm.mem_iff]
    exact mem_moves_iff
  constructor
  · rw [List.map_append, List.nodup_append']
    refine ⟨rollMoves_nodup .., (hperm.map _).nodup_iff.2 (dueMoves_nodup _), fun i hi hi' => ?_⟩
    obtain ⟨⟨j, l, n⟩, hroll, rfl⟩ := List.mem_map.1 hi
    obtain ⟨⟨j', l', n'⟩, hdue, hj⟩ := List.mem_map.1 hi'
    obtain rfl : j' = j := hj
    obtain ⟨hforced, -, -⟩ := mem_rollMoves_iff.1 hroll
    obtain ⟨-, hmove⟩ := mem_dueMoves_iff.1 (hperm.mem_iff.1 hdue)
    have hexpired : (slotAt (rolledReported a.roll s) j').state = .expired := by
      rw [slotAt_rolledReported, Slot.rolledBy_of_forced hforced]
      split <;> rfl
    rw [dueMove_expired hexpired] at hmove
    cases hmove
  · intro i l n
    rw [hmem, slotAt_advanceSlots a hset, (Slot.passed_state ..).1]

/-- The cues after the day roll and the second event. -/
theorem movesSettle_advanceSlots (hset : s.clock.isSet = true) {moves : List (Nat × SlotState × SlotState)} {n : Nat}
    (hperm : moves.Perm (dueMoves (rolledReported a.roll s)))
    (heq : advanceSlots a s = runTimers a.seconds (reportMoves moves { moved (rolledReported a.roll s) with freeCount := n }))
    (hroom : s.cues.queue.length + (newBoarding s (advanceSlots a s)).length ≤ 16) :
    MovesSettle (boardRecord (advanceSlots a s)) (rollMoves a.roll s ++ moves) s.cues (advanceSlots a s).cues := by
  have hbetween := movesBetween_advanceSlots hset hperm
  obtain ⟨hparams, hclock, -⟩ := rolledReported_reads a.roll s
  have hparams' : (advanceSlots a s).params = s.params := (advanceSlots_only a s).same .params
  have hclock' : (advanceSlots a s).clock = s.clock := (advanceSlots_only a s).same .clock
  have hforgotten : ∀ (b : Bool) (x : Slot), (if b then x.forgotten else x).applied = x.applied ∧
      (if b then x.forgotten else x).keys = x.keys := fun b x => by cases b <;> exact ⟨rfl, rfl⟩
  have hrolled : boardRecord (rolledReported a.roll s) = boardRecord (rolled a.roll s) := by
    have h := reportMoves_only (rollMoves a.roll s) (rolled a.roll s)
    exact boardRecord_of (fun i => by rw [slotAt_rolledReported, (hforgotten ..).1, slotAt_rolled])
      (fun i => by rw [slotAt_rolledReported, (hforgotten ..).2, slotAt_rolled]) (h.same .params) (h.same .clock)
  have hmoved : boardRecord { moved (rolledReported a.roll s) with freeCount := n } = boardRecord (rolledReported a.roll s) := by
    have hadvance : ∀ (q : Params) (c : Clock) (x : Slot), (x.advance q c).applied = x.applied ∧ (x.advance q c).keys = x.keys :=
      fun q c x => by
        obtain he | ⟨-, m, -, he⟩ := Slot.advance_cases q c x <;> rw [he] <;> exact ⟨rfl, rfl⟩
    exact boardRecord_of (fun i => (congrArg Slot.applied (slotAt_moved i)).trans (hadvance ..).1)
      (fun i => (congrArg Slot.keys (slotAt_moved i)).trans (hadvance ..).2) rfl rfl
  have hlast : boardRecord (advanceSlots a s) = boardRecord (rolled a.roll s) := by
    rw [← hrolled, ← hmoved]
    have hslot : ∀ i, (slotAt (advanceSlots a s) i).applied = (slotAt { moved (rolledReported a.roll s) with freeCount := n } i).applied ∧
        (slotAt (advanceSlots a s) i).keys = (slotAt { moved (rolledReported a.roll s) with freeCount := n } i).keys := fun i => by
      have hstage : slotAt { moved (rolledReported a.roll s) with freeCount := n } i =
          slotAt (moved (rolledReported a.roll s)) i := rfl
      obtain ⟨-, happlied, hkeys⟩ := Slot.passed_state a.roll a.seconds s.params s.clock (slotAt s i)
      rw [slotAt_advanceSlots a hset, happlied, hkeys, hstage, slotAt_moved, hparams, hclock, slotAt_rolledReported]
      cases expiresIn (rollMoves a.roll s) i with
      | false => exact ⟨rfl, rfl⟩
      | true =>
        rw [if_pos rfl, Slot.advance_forgotten]
        exact ⟨rfl, rfl⟩
    exact boardRecord_of (fun i => (hslot i).1) (fun i => (hslot i).2) (hparams'.trans hparams.symm) (hclock'.trans hclock.symm)
  have hjoining := hbetween.joining
  have hcues : (rolled a.roll s).cues = s.cues := by
    obtain ⟨rows, att, h, -⟩ := rolled_frame a.roll s
    rw [h]
  rw [hlast] at hjoining ⊢
  have hfirst : MovesSettle (boardRecord (rolled a.roll s)) (rollMoves a.roll s) s.cues (rolledReported a.roll s).cues := by
    have h₀ : MovesSettle (boardRecord (rolled a.roll s)) [] s.cues (rolled a.roll s).cues := by
      rw [hcues]
      exact .nil ..
    refine h₀.reports (rollMoves a.roll s) rfl (rollMoves_nodup ..) ?_
    have hle : (joiningMoves (boardRecord (rolled a.roll s)) s.cues.queue ([] ++ rollMoves a.roll s)).length ≤
        (joiningMoves (boardRecord (rolled a.roll s)) s.cues.queue (rollMoves a.roll s ++ moves)).length := by
      rw [joiningMoves, joiningMoves, List.filter_append (l₁ := rollMoves a.roll s), List.length_append]
      exact Nat.le_add_right ..
    omega
  rw [heq]
  exact MovesSettle.reports (s := { moved (rolledReported a.roll s) with freeCount := n }) moves hfirst (hmoved.trans hrolled)
    hbetween.1 (by rw [hjoining]; exact hroom)

/-- What a time advance makes of the cues. -/
theorem cuesAdvance_advanceSlots (hset : s.clock.isSet = true) : CuesAdvance s (advanceSlots a s) := by
  obtain ⟨moves, n, hperm, heq⟩ := advanceSlots_eq a hset
  refine cuesAdvance_of_moves (movesBetween_advanceSlots hset hperm) ((advanceSlots_only a s).same .params) (fun i hs ht => ?_)
    (movesSettle_advanceSlots hset hperm heq)
  obtain ⟨hstate, -, hkeys⟩ := Slot.passed_state a.roll a.seconds s.params s.clock (slotAt s i)
  rw [slotAt_advanceSlots a hset] at ht ⊢
  rw [hkeys]
  rw [hstate] at ht
  have hne : ((slotAt s i).timed a.roll s.params s.clock).state ≠ (slotAt s i).state := by
    rw [hs, ht]
    decide
  have hmove := Slot.moves_iff.2 ⟨rfl, rfl, by rw [hs]; rfl, hne⟩
  rcases hmove with ⟨-, -, hn⟩ | ⟨-, hdue⟩
  · rw [ht] at hn
    cases hn
  · have hsome : ((slotAt s i).rolledBy a.roll).keys.isSome = true := by
      unfold dueMove at hdue
      split at hdue
      · rename_i hk
        rw [hk]
        rfl
      · cases hdue
    rw [Slot.timed, Slot.advance, hdue]
    exact hsome

end Advance

end Sys2Proof.Machine
end

section
/-! PROOFS. The marks of a time advance (R61, R92, R97, R163). -/

namespace Sys2Proof.Machine

set_option Elab.async false

/-! ## Marks that join, in an order left free -/

/-- No mark of these for the drop is URGENT or carries a slot. -/
def QuietFor (ms : List Mark) (drop : Nat) : Prop := ∀ x ∈ ms, x.drop = drop → x.urgent = false ∧ x.cause = none

/-- The pending set of `t` is that of `s` with these marks joined, in whatever order (R97). -/
structure JoinedBy (ms : List Mark) (s t : State) : Prop where
  listens : ∀ a, Machine.listens t a = Machine.listens s a
  has : ∀ x ∈ ms, Machine.listens s x.drop = true → ∃ m ∈ t.display.marks, m.drop = x.drop ∧ (x.urgent = true → m.urgent = true)
  keeps : ∀ e ∈ s.display.marks, ∃ m ∈ t.display.marks, m.drop = e.drop ∧ m.seq = e.seq ∧ (e.urgent = true → m.urgent = true)
  source : ∀ m ∈ t.display.marks,
    (∃ e ∈ s.display.marks, e.drop = m.drop ∧ (QuietFor ms m.drop → m.urgent = e.urgent ∧ m.cause = e.cause)) ∨
      ((∀ e ∈ s.display.marks, e.drop ≠ m.drop) ∧ (∃ x ∈ ms, x.drop = m.drop) ∧
        (QuietFor ms m.drop → m.urgent = false ∧ m.cause = none))

namespace JoinedBy

variable {ms ns : List Mark} {s t u : State}

theorem refl (s : State) : JoinedBy [] s s where
  listens := fun _ => rfl
  has := nofun
  keeps := fun e he => ⟨e, he, rfl, rfl, id⟩
  source := fun m hm => .inl ⟨m, hm, rfl, fun _ => ⟨rfl, rfl⟩⟩

theorem of_display (h : JoinedBy ms s t) {s' t' : State} (hs : s'.display = s.display) (ht : t'.display = t.display) :
    JoinedBy ms s' t' := by
  have hlistens : ∀ {v v' : State}, v'.display = v.display → ∀ a, Machine.listens v' a = Machine.listens v a :=
    fun {v v'} hv a => by
      have hdrop : dropAt v' a = dropAt v a := by simp only [dropAt, hv]
      simp only [Machine.listens, hdrop]
  constructor
  · exact fun a => (hlistens ht a).trans ((h.listens a).trans (hlistens hs a).symm)
  · exact fun x hx hx' => ht ▸ h.has x hx ((hlistens hs _).symm.trans hx')
  · rw [hs, ht]
    exact h.keeps
  · rw [hs, ht]
    exact h.source

theorem trans (h : JoinedBy ms s t) (h' : JoinedBy ns t u) : JoinedBy (ms ++ ns) s u where
  listens := fun a => (h'.listens a).trans (h.listens a)
  has := fun x hx hlistens => by
    rcases List.mem_append.1 hx with hmem | hmem
    · obtain ⟨m, hm, hdrop, hurgent⟩ := h.has x hmem hlistens
      obtain ⟨m', hm', hdrop', -, hurgent'⟩ := h'.keeps m hm
      exact ⟨m', hm', hdrop'.trans hdrop, hurgent' ∘ hurgent⟩
    · exact h'.has x hmem ((h.listens _).trans hlistens)
  keeps := fun e he => by
    obtain ⟨m, hm, hdrop, hseq, hurgent⟩ := h.keeps e he
    obtain ⟨m', hm', hdrop', hseq', hurgent'⟩ := h'.keeps m hm
    exact ⟨m', hm', hdrop'.trans hdrop, hseq'.trans hseq, hurgent' ∘ hurgent⟩
  source := fun m hm => by
    have hleft : ∀ {d}, QuietFor (ms ++ ns) d → QuietFor ms d := fun hq x hx => hq x (List.mem_append_left _ hx)
    have hright : ∀ {d}, QuietFor (ms ++ ns) d → QuietFor ns d := fun hq x hx => hq x (List.mem_append_right _ hx)
    obtain ⟨e, he, hdrop, hsame⟩ | ⟨hnew, ⟨x, hx, hdrop⟩, hquiet⟩ := h'.source m hm
    · obtain ⟨e', he', hdrop', hsame'⟩ | ⟨hnew, ⟨x, hx, hxdrop⟩, hquiet⟩ := h.source e he
      · refine .inl ⟨e', he', hdrop'.trans hdrop, fun hq => ?_⟩
        obtain ⟨hurgent, hcause⟩ := hsame (hright hq)
        obtain ⟨hurgent', hcause'⟩ := hsame' (hdrop ▸ hleft hq)
        exact ⟨hurgent.trans hurgent', hcause.trans hcause'⟩
      · refine .inr ⟨fun d hd => hdrop ▸ hnew d hd, ⟨x, List.mem_append_left _ hx, hxdrop.trans hdrop⟩, fun hq => ?_⟩
        obtain ⟨hurgent, hcause⟩ := hsame (hright hq)
        obtain ⟨hurgent', hcause'⟩ := hquiet (hdrop ▸ hleft hq)
        exact ⟨hurgent.trans hurgent', hcause.trans hcause'⟩
    · refine .inr ⟨fun e he hdrop' => ?_, ⟨x, List.mem_append_right _ hx, hdrop⟩, fun hq => hquiet (hright hq)⟩
      obtain ⟨e', he', hsame, -⟩ := h.keeps e he
      exact hnew e' he' (hsame.trans hdrop')

theorem congr (h : JoinedBy ms s t) (hmem : ∀ x, x ∈ ms ↔ x ∈ ns) : JoinedBy ns s t := by
  have hquiet : ∀ {d}, QuietFor ns d → QuietFor ms d := fun hq x hx => hq x ((hmem x).1 hx)
  exact ⟨h.listens, fun x hx => h.has x ((hmem x).2 hx), h.keeps, fun m hm => (h.source m hm).imp
    (fun ⟨e, he, hdrop, hsame⟩ => ⟨e, he, hdrop, hsame ∘ hquiet⟩)
    (fun ⟨hnew, ⟨x, hx, hdrop⟩, hsame⟩ => ⟨hnew, ⟨x, (hmem x).1 hx, hdrop⟩, hsame ∘ hquiet⟩)⟩

/-- One mark treated by the table of R97. -/
theorem joinMark (x : Mark) (s : State) : JoinedBy [x] s (Machine.joinMark x s) := by
  have hlistens : ∀ a, Machine.listens (Machine.joinMark x s) a = Machine.listens s a := fun a => by
    simp only [Machine.listens, (joinMark_frame x s).dropAt]
  obtain ⟨t, ht⟩ : ∃ t, t = Machine.joinMark x s := ⟨_, rfl⟩
  rw [← ht] at hlistens ⊢
  unfold Machine.joinMark at ht
  split at ht
  · rename_i hdeaf
    subst ht
    refine ⟨hlistens, fun y hy hyes => ?_, (refl _).keeps, fun m hm => .inl ⟨m, hm, rfl, fun _ => ⟨rfl, rfl⟩⟩⟩
    obtain ⟨honline, hrole⟩ := listens_iff.1 (List.mem_singleton.1 hy ▸ hyes)
    simp [honline, hrole] at hdeaf
  · split at ht
    · rename_i hthere
      subst ht
      have hraise : ∀ e : Mark, (if e.drop = x.drop then e.raise x else e).drop = e.drop ∧
          (if e.drop = x.drop then e.raise x else e).seq = e.seq ∧
          (e.urgent = true → (if e.drop = x.drop then e.raise x else e).urgent = true) := fun e => by
        split
        · exact ⟨rfl, rfl, fun hu => by simp [Mark.raise, hu]⟩
        · exact ⟨rfl, rfl, id⟩
      refine ⟨hlistens, fun y hy _ => ?_, fun e he => ⟨_, List.mem_map_of_mem he, hraise e⟩, fun m hm => ?_⟩
      · obtain ⟨e, he, hdrop⟩ := List.any_eq_true.1 hthere
        rw [List.mem_singleton.1 hy]
        refine ⟨_, List.mem_map_of_mem he, (hraise e).1.trans (of_decide_eq_true hdrop), fun hu => ?_⟩
        rw [if_pos (of_decide_eq_true hdrop), Mark.raise, hu, Bool.or_true]
      · obtain ⟨e, he, rfl⟩ := List.mem_map.1 hm
        refine .inl ⟨e, he, (hraise e).1.symm, fun hq => ?_⟩
        by_cases hdrop : e.drop = x.drop
        · rw [if_pos hdrop] at hq ⊢
          obtain ⟨hurgent, hcause⟩ := hq x (List.mem_singleton.2 rfl) hdrop.symm
          simp [Mark.raise, hurgent, hcause]
        · rw [if_neg hdrop]
          exact ⟨rfl, rfl⟩
    · rename_i hnot
      subst ht
      have hnew : ∀ e ∈ s.display.marks, e.drop ≠ x.drop := fun e he hdrop =>
        hnot (List.any_eq_true.2 ⟨e, he, decide_eq_true hdrop⟩)
      refine ⟨hlistens, fun y hy _ => ?_, fun e he => ⟨e, List.mem_append_left _ he, rfl, rfl, id⟩, fun m hm => ?_⟩
      · rw [List.mem_singleton.1 hy]
        exact ⟨_, List.mem_append_right _ (List.mem_singleton.2 rfl), rfl, id⟩
      · rcases List.mem_append.1 hm with hold | hlast
        · exact .inl ⟨m, hold, rfl, fun _ => ⟨rfl, rfl⟩⟩
        · rw [List.mem_singleton.1 hlast]
          exact .inr ⟨hnew, ⟨x, List.mem_singleton.2 rfl, rfl⟩, fun hq => hq x (List.mem_singleton.2 rfl) rfl⟩

/-- Marks that carry no slot, handed over one after another. -/
theorem handMarks (hcause : ∀ x ∈ ms, x.cause = none) (s : State) : JoinedBy ms s (Machine.handMarks ms s) := by
  induction ms generalizing s with
  | nil => exact refl s
  | cons x rest ih =>
    have hfirst : Machine.handMarks (x :: rest) s = Machine.handMarks rest (Machine.joinMark x s) := by
      show Machine.handMarks rest (handMark x s) = _
      rw [handMark, hcause x List.mem_cons_self]
    rw [hfirst]
    exact (joinMark x s).trans (ih (fun y hy => hcause y (List.mem_cons_of_mem _ hy)) _)

/-- Groups of marks that carry no slot. -/
theorem handGroups {groups : List (List Mark)} (hcause : ∀ x ∈ groups.flatten, x.cause = none) (s : State) :
    JoinedBy groups.flatten s (Machine.handGroups groups s) := by
  have hmem : ∀ gs : List (List Mark), gs.Perm (groups.filter fun g => !g.isEmpty) → ∀ x, x ∈ gs.flatten ↔ x ∈ groups.flatten :=
    fun gs hperm x => by
      simp only [List.mem_flatten, hperm.mem_iff, List.mem_filter, Bool.not_eq_true', List.isEmpty_eq_false_iff]
      exact ⟨fun ⟨g, ⟨hg, _⟩, hx⟩ => ⟨g, hg, hx⟩, fun ⟨g, hg, hx⟩ => ⟨g, ⟨hg, List.ne_nil_of_mem hx⟩, hx⟩⟩
  unfold Machine.handGroups
  simp only
  split
  · have hiff := hmem _ (.refl _)
    exact (handMarks (fun x hx => hcause x ((hiff x).1 hx)) s).congr hiff
  · have hiff := hmem _ (arrange_perm (Config.openOrder s.freeCount) (groups.filter fun g => !g.isEmpty))
    exact ((handMarks (fun x hx => hcause x ((hiff x).1 hx)) { s with freeCount := s.freeCount + 1 }).congr hiff).of_display rfl rfl

end JoinedBy

end Sys2Proof.Machine
end

section
/-! PROOFS. The notices of a minute event, and a time advance delivered to all blocks (R52, R53, R61, R92, R162, R163). -/

namespace Sys2Proof.Machine

set_option Elab.async false

/-! ## Contents and the clock -/

/-- Of the clock, contents read T and whether it is set. -/
theorem sameContent_of_time {s t : State} (hslots : t.slots = s.slots) (hrows : t.rowMap = s.rowMap) (hfoot : t.footnotes = s.footnotes)
    (hparams : t.params = s.params) (htime : t.clock.t = s.clock.t) (hset : t.clock.isSet = s.clock.isSet) : SameContent s t := by
  have hcontent : ∀ (x : Slot) (r : Record) (ke : Int), contentOf s.params t.clock x r ke = contentOf s.params s.clock x r ke :=
    fun x r ke => by
      have hcountdown : shownCountdown s.params t.clock x ke = shownCountdown s.params s.clock x ke := by
        have hahead : countdown ke t.clock = countdown ke s.clock := by rw [countdown, countdown, Clock.minute, Clock.minute, htime]
        rw [shownCountdown, shownCountdown, hahead, hset]
      simp only [contentOf, hcountdown]
  have hslotAt : ∀ i, slotAt t i = slotAt s i := fun i => by simp only [slotAt, hslots]
  have hslot : ∀ i, slotContent t i = slotContent s i := fun i => by simp only [slotContent, hslotAt, hparams, hcontent]
  have hplatform : ∀ i, platformOf t i = platformOf s i := fun i => by simp only [platformOf, hslotAt]
  have hservice : ∀ i, serviceOf t i = serviceOf s i := fun i => by simp only [serviceOf, hslotAt]
  constructor
  · intro row
    simp only [rowContent, positionSlot, hrows, hslot]
  · intro p
    simp only [boardContent, mainField, mainSlot, footnoteShown, footnoteAt, hrows, hfoot, hslot, hplatform, hservice]

/-! ## The notices of a minute event -/

section Notices

variable {passed : Nat} {s : State}

theorem entryAt_ageNotices (i : Nat) : entryAt (ageNotices passed s) i = (entryAt s i).age passed := by
  have hreset : Entry.age passed .reset = .reset := rfl
  show (s.notices.entries.map (Entry.age passed)).getD i .reset = _
  conv_lhs => rw [← hreset]
  exact List.getD_map ..

theorem isActive_eq (s : State) (i : Nat) : isActive s i = true ↔ (entryAt s i).state = .active := decide_eq_true_iff

/-- The entry shown is ACTIVE no more: the rotation advances (R163). -/
theorem noticeMinutes_gone {i : Nat} (hshown : s.notices.shown = some i) (hgone : (entryAt (ageNotices passed s) i).state ≠ .active) :
    noticeMinutes passed s =
      (advanceRotation (ageNotices passed s), [tickerMark (advanceRotation (ageNotices passed s))]) := by
  have hshown' : (ageNotices passed s).notices.shown = some i := hshown
  have hnot : ¬isActive (ageNotices passed s) i = true := fun h => hgone ((isActive_eq ..).1 h)
  unfold noticeMinutes
  simp only [hshown', if_neg hnot]

theorem noticeMinutes_stays (h : ∀ i, s.notices.shown = some i → (entryAt (ageNotices passed s) i).state = .active) :
    noticeMinutes passed s = (ageNotices passed s, []) := by
  have hshown' : (ageNotices passed s).notices.shown = s.notices.shown := rfl
  unfold noticeMinutes
  simp only [hshown']
  cases hshown : s.notices.shown with
  | none => rfl
  | some i => simp only [if_pos ((isActive_eq ..).2 (h i hshown))]

/-- What the advance of the rotation keeps of the entries. -/
theorem entryAt_advanceRotation (s : State) (i : Nat) : entryAt (advanceRotation s) i = entryAt s i := by
  unfold advanceRotation
  cases nextShown s <;> rfl

/-- The entries after a minute event (R162). -/
theorem entryAt_noticeMinutes (i : Nat) : entryAt (noticeMinutes passed s).1 i = (entryAt s i).age passed := by
  rw [← entryAt_ageNotices]
  by_cases h : ∀ i, s.notices.shown = some i → (entryAt (ageNotices passed s) i).state = .active
  · rw [noticeMinutes_stays h]
  · obtain ⟨j, hj⟩ := not_forall.1 h
    obtain ⟨hshown, hgone⟩ := Classical.not_imp.1 hj
    rw [noticeMinutes_gone hshown hgone, entryAt_advanceRotation]

/-- What a minute event makes of the notices. -/
theorem noticesAdvance_noticeMinutes : NoticesAdvance passed s (noticeMinutes passed s).1 := by
  constructor
  · intro i _ e
    rw [entryAt_noticeMinutes]
    unfold Entry.age
    by_cases hages : e.state = .active ∧ e.minutes ≠ 0
    · by_cases hout : e.minutes ≤ passed
      · rw [if_pos hages, if_pos hout, if_pos hages, if_pos hout]
        exact ⟨rfl, rfl, rfl, rfl, rfl⟩
      · rw [if_pos hages, if_neg hout, if_pos hages, if_neg hout]
    · rw [if_neg hages, if_neg hages]
  · have hentries : (noticeMinutes passed s).1.notices.entries = s.notices.entries.map (Entry.age passed) := by
      by_cases h : ∀ i, s.notices.shown = some i → (entryAt (ageNotices passed s) i).state = .active
      · rw [noticeMinutes_stays h]
        rfl
      · obtain ⟨j, hj⟩ := not_forall.1 h
        obtain ⟨hshown, hgone⟩ := Classical.not_imp.1 hj
        rw [noticeMinutes_gone hshown hgone, advanceRotation]
        cases nextShown (ageNotices passed s) <;> rfl
    rw [hentries]
    cases hshown : s.notices.shown with
    | none =>
      rw [noticeMinutes_stays fun i hi => by rw [hshown] at hi; cases hi]
      rfl
    | some i =>
      simp only [entryAt_noticeMinutes, ← entryAt_ageNotices]
      by_cases hactive : (entryAt (ageNotices passed s) i).state = .active
      · rw [if_pos hactive, noticeMinutes_stays fun j hj => by rw [hshown] at hj; cases hj; exact hactive]
        rfl
      · rw [if_neg hactive, noticeMinutes_gone hshown hactive]
        refine ⟨fun n _ hselects => ?_, fun hnone => ?_⟩
        · have hnext : nextShown (ageNotices passed s) = some n := nextShown_of_selects hselects
          rw [advanceRotation, hnext]
          rfl
        · rw [advanceRotation, nextShown_of_none_active hnone]
          rfl

/-- The ticker drop is marked where the entry shown changes (R163). -/
theorem noticeMinutes_marks :
    (∀ x ∈ (noticeMinutes passed s).2, x.cause = none ∧ x.drop = s.params.tickerDrop ∧
      s.notices.shown ≠ (noticeMinutes passed s).1.notices.shown) ∧
    (s.notices.shown ≠ (noticeMinutes passed s).1.notices.shown → ∃ x ∈ (noticeMinutes passed s).2, x.drop = s.params.tickerDrop) := by
  by_cases h : ∀ i, s.notices.shown = some i → (entryAt (ageNotices passed s) i).state = .active
  · rw [noticeMinutes_stays h]
    exact ⟨nofun, fun hne => absurd rfl hne⟩
  · obtain ⟨j, hj⟩ := not_forall.1 h
    obtain ⟨hshown, hgone⟩ := Classical.not_imp.1 hj
    have hmark : ∀ u : State, (tickerMark u).cause = none ∧ (tickerMark u).drop = u.params.tickerDrop := fun u => by
      unfold tickerMark
      split <;> exact ⟨rfl, rfl⟩
    have hparams : (advanceRotation (ageNotices passed s)).params = s.params := by
      unfold advanceRotation
      cases nextShown (ageNotices passed s) <;> rfl
    have hne : s.notices.shown ≠ (advanceRotation (ageNotices passed s)).notices.shown := by
      rw [hshown, advanceRotation]
      cases hnext : nextShown (ageNotices passed s) with
      | none => exact nofun
      | some n =>
        intro he
        obtain ⟨-, hactive⟩ := nextShown_active hnext
        rw [← Option.some.inj he] at hactive
        exact hgone hactive
    rw [noticeMinutes_gone hshown hgone]
    refine ⟨fun x hx => ?_, fun _ => ⟨_, List.mem_singleton.2 rfl, (hmark _).2.trans (by rw [hparams])⟩⟩
    obtain rfl := List.mem_singleton.1 hx
    exact ⟨(hmark _).1, (hmark _).2.trans (by rw [hparams]), hne⟩

end Notices

theorem NoticesAdvance.of_eq {passed : Nat} {s s' t t' : State} (h : NoticesAdvance passed s t) (hs : s'.notices = s.notices)
    (ht : t'.notices = t.notices) : NoticesAdvance passed s' t' := by
  unfold NoticesAdvance Selects entryAt at *
  simp only [hs, ht]
  exact h

end Sys2Proof.Machine
end

section
/-! PROOFS. A time advance delivered to all blocks, in the words of the specification (R52, R53, R61, R92). -/

namespace Sys2Proof.Machine

set_option Elab.async false

/-! ## The stages of an advance -/

/-- The state after day roll and second event, T standing at its new value. -/
def secondPassed (a : Advance) (u : State) : State := advanceSlots a (setT a.new u)

/-- The minute event, where the minute changed: the state and the marks of the rotation. -/
def minutePassed (a : Advance) (u : State) : State × List Mark :=
  if a.minuteEvent then noticeMinutes a.minutes (secondPassed a u) else (secondPassed a u, [])

/-- The marks the blocks hand over. -/
def advanceMarks (a : Advance) (changed : Bool) (was u : State) : List (List Mark) :=
  [contentMarks none was (secondPassed a u), (minutePassed a u).2, if a.minuteEvent || changed then [clockMark u] else []]

section Stages

variable {a : Advance} {changed : Bool} {was u : State}

theorem timeAdvance_happens (h : a.happens = true) :
    timeAdvance a changed was u = handGroups (advanceMarks a changed was u) (minutePassed a u).1 := if_pos h

theorem timeAdvance_not (h : a.happens = false) :
    timeAdvance a changed was u = if changed then handMark (clockMark u) u else u :=
  if_neg (by rw [h]; exact Bool.false_ne_true)

theorem happens_eq_false (h : a.happens = false) : a.leaving = false ∧ a.roll = false ∧ a.new = a.old := by
  simpa only [Advance.happens, Bool.or_eq_false_iff, decide_eq_false_iff_not, not_not, and_assoc] using h

theorem minuteEvent_of_not (h : a.happens = false) : a.minuteEvent = false := by
  obtain ⟨hleaving, hroll, hnew⟩ := happens_eq_false h
  simp [Advance.minuteEvent, hleaving, hroll, hnew]

/-- The second event reads and keeps the rest. -/
theorem secondPassed_frame (a : Advance) (u : State) :
    (secondPassed a u).display = u.display ∧ (secondPassed a u).params = u.params ∧ (secondPassed a u).notices = u.notices ∧
      (secondPassed a u).clock = { u.clock with t := a.new } := by
  have h := advanceSlots_only a (setT a.new u)
  have hu := h.overlay
  exact ⟨by rw [secondPassed, hu]; rfl, h.same .params, by rw [secondPassed, hu]; rfl, h.same .clock⟩

/-- The minute event changes the notices only. -/
theorem minutePassed_frame (a : Advance) (u : State) :
    (minutePassed a u).1 = { secondPassed a u with notices := (minutePassed a u).1.notices } := by
  unfold minutePassed
  split
  · have h := (noticeMinutes_only a.minutes (secondPassed a u)).overlay
    conv_lhs => rw [h]
    conv_rhs => rw [h]
    rfl
  · rfl

/-- The blocks' marks join; nothing else of what a time advance concerns differs (R53). -/
theorem timeAdvance_handed (h : a.happens = true) :
    ∃ n, MarksOnly { (minutePassed a u).1 with freeCount := n } (timeAdvance a changed was u) := by
  rw [timeAdvance_happens h]
  exact handGroups_frame _ _

/-! ## The marks -/

/-- The marks asked for by an event that is no commit (R61, R92, R163). -/
structure AsksFor (clock : Bool) (s t : State) (ms : List Mark) : Prop where
  rows : ∀ row < s.params.w, rowContent s row ≠ rowContent t row → ∃ x ∈ ms, x.drop = s.params.firstWall + row
  boards : ∀ k < s.params.p, boardContent s (k + 1) ≠ boardContent t (k + 1) → ∃ x ∈ ms, x.drop = s.params.boardBase + k
  clockDrop : clock = true → clockMark s ∈ ms
  ticker : s.notices.shown ≠ t.notices.shown → ∃ x ∈ ms, x.drop = s.params.tickerDrop
  only : ∀ x ∈ ms, clock = true ∧ x.drop = s.params.clockDrop ∨
    s.notices.shown ≠ t.notices.shown ∧ x.drop = s.params.tickerDrop ∨
      x.urgent = false ∧ x.cause = none ∧
        ((∃ row < s.params.w, x.drop = s.params.firstWall + row ∧ rowContent s row ≠ rowContent t row) ∨
          ∃ k < s.params.p, x.drop = s.params.boardBase + k ∧ boardContent s (k + 1) ≠ boardContent t (k + 1))

theorem AsksFor.advanceMarks {clock : Bool} {s t : State} {ms : List Mark} (hasks : AsksFor clock s t ms) (h : JoinedBy ms s t) :
    AdvanceMarks clock s t := by
  have hlistens : ∀ {b}, (dropAt s b).online = true ∧ (dropAt s b).role ≠ .none → listens s b = true := listens_iff.2
  have hhas : ∀ {b}, (∃ x ∈ ms, x.drop = b) → (dropAt s b).online = true ∧ (dropAt s b).role ≠ .none →
      ∃ m ∈ t.display.marks, m.drop = b := fun ⟨x, hx, hdrop⟩ hyes => by
    obtain ⟨m, hm, hdrop', -⟩ := h.has x hx (by rw [hdrop]; exact hlistens hyes)
    exact ⟨m, hm, hdrop'.trans hdrop⟩
  refine ⟨fun row hrow hne => hhas (hasks.rows row hrow hne), fun k hk hne => hhas (hasks.boards k hk hne), fun hclock hyes => ?_,
    fun hne => hhas (hasks.ticker hne), h.keeps, fun m hm hnew => ?_⟩
  · obtain ⟨m, hm, hdrop, hurgent⟩ := h.has _ (hasks.clockDrop hclock) (hlistens hyes)
    exact ⟨m, hm, hdrop, hurgent rfl⟩
  · obtain ⟨e, he, hdrop, -⟩ | ⟨-, ⟨x, hx, hdrop⟩, hquiet⟩ := h.source m hm
    · exact absurd hdrop (hnew e he)
    · by_cases hclock : clock = true ∧ m.drop = s.params.clockDrop
      · exact .inl hclock
      · by_cases hticker : s.notices.shown ≠ t.notices.shown ∧ m.drop = s.params.tickerDrop
        · exact .inr (.inl hticker)
        · have hthird : ∀ y ∈ ms, y.drop = m.drop → y.urgent = false ∧ y.cause = none ∧
              ((∃ row < s.params.w, m.drop = s.params.firstWall + row ∧ rowContent s row ≠ rowContent t row) ∨
                ∃ k < s.params.p, m.drop = s.params.boardBase + k ∧ boardContent s (k + 1) ≠ boardContent t (k + 1)) := by
            intro y hy hdrop'
            have hcases := hasks.only y hy
            rw [hdrop'] at hcases
            exact (hcases.resolve_left hclock).resolve_left hticker
          obtain ⟨hurgent, hcause⟩ := hquiet fun y hy hdrop' => ⟨(hthird y hy hdrop').1, (hthird y hy hdrop').2.1⟩
          exact .inr (.inr ⟨hurgent, hcause, (hthird x hx hdrop).2.2⟩)

/-- A change of the clock state marks the clock drop beside (R61). -/
theorem AsksFor.also {clock : Bool} {s t : State} {ms : List Mark} (h : AsksFor clock s t ms) (more : Bool) :
    AsksFor (clock || more) s t ((if more then [clockMark s] else []) ++ ms) := by
  have hright : ∀ {x : Mark}, x ∈ ms → x ∈ (if more then [clockMark s] else []) ++ ms := fun hx => List.mem_append_right _ hx
  refine ⟨fun row hrow hne => ?_, fun k hk hne => ?_, fun hclock => ?_, fun hne => ?_, fun x hx => ?_⟩
  · obtain ⟨x, hx, hdrop⟩ := h.rows row hrow hne
    exact ⟨x, hright hx, hdrop⟩
  · obtain ⟨x, hx, hdrop⟩ := h.boards k hk hne
    exact ⟨x, hright hx, hdrop⟩
  · cases more with
    | true => exact List.mem_append_left _ (List.mem_singleton.2 rfl)
    | false => exact hright (h.clockDrop (by simpa using hclock))
  · obtain ⟨x, hx, hdrop⟩ := h.ticker hne
    exact ⟨x, hright hx, hdrop⟩
  · rcases List.mem_append.1 hx with hmem | hmem
    · cases more with
      | true => exact .inl ⟨Bool.or_true _, by rw [List.mem_singleton.1 hmem]; rfl⟩
      | false => cases hmem
    · exact (h.only x hmem).imp_left fun hclock => ⟨by rw [hclock.1]; rfl, hclock.2⟩

theorem contentMarks_cause {s t : State} : ∀ x ∈ contentMarks none s t, x.urgent = false ∧ x.cause = none := by
  intro x hx
  rcases List.mem_append.1 hx with hmem | hmem
  · obtain ⟨row, -, hrow⟩ := List.mem_filterMap.1 hmem
    unfold rowMark at hrow
    split at hrow
    · cases hrow
    · obtain rfl := Option.some.inj hrow
      exact ⟨rfl, rfl⟩
  · obtain ⟨k, -, hk⟩ := List.mem_filterMap.1 hmem
    unfold boardMark at hk
    split at hk
    · cases hk
    · obtain rfl := Option.some.inj hk
      exact ⟨rfl, rfl⟩

theorem asksFor_of_sameContent {clock : Bool} {s t : State} (h : SameContent s t) (hshown : t.notices.shown = s.notices.shown) :
    AsksFor clock s t (if clock then [clockMark s] else []) := by
  refine ⟨fun row _ hne => absurd (h.1 row).symm hne, fun k _ hne => absurd (h.2 (k + 1)).symm hne, fun hclock => ?_,
    fun hne => absurd hshown.symm hne, fun x hx => ?_⟩
  · rw [if_pos hclock]
    exact List.mem_singleton.2 rfl
  · cases clock with
    | true => exact .inl ⟨rfl, by rw [List.mem_singleton.1 hx]; rfl⟩
    | false => cases hx

end Stages

end Sys2Proof.Machine
end

section
/-! PROOFS. What a change of T brings, block by block, from the state before the event to the state after it (R52, R53). -/

namespace Sys2Proof.Machine

set_option Elab.async false

/-! ## What each block's statement reads -/

section Reads

variable {s s' t t' : State}

theorem SlotsAdvance.of_eq {roll : Bool} {passed : Nat} (h : SlotsAdvance roll passed s t) (hslots : s'.slots = s.slots)
    (hrows : s'.rowMap = s.rowMap) (hfoot : s'.footnotes = s.footnotes) (hparams : s'.params = s.params)
    (hslots' : t'.slots = t.slots) (hrows' : t'.rowMap = t.rowMap) (hfoot' : t'.footnotes = t.footnotes)
    (hclock' : t'.clock = t.clock) : SlotsAdvance roll passed s' t' := by
  have hs : s = { s with slots := s'.slots, rowMap := s'.rowMap, footnotes := s'.footnotes, params := s'.params } := by
    rw [hslots, hrows, hfoot, hparams]
  have ht : t = { t with slots := t'.slots, rowMap := t'.rowMap, footnotes := t'.footnotes, clock := t'.clock } := by
    rw [hslots', hrows', hfoot', hclock']
  rw [hs, ht] at h
  exact h

theorem CuesAdvance.of_eq (h : CuesAdvance s t) (hslots : s'.slots = s.slots) (hparams : s'.params = s.params)
    (hcues : s'.cues = { s.cues with busyTimer := s'.cues.busyTimer })
    (hslots' : t'.slots = t.slots) (hclock' : t'.clock = t.clock)
    (hcues' : t'.cues = { t.cues with busyTimer := t'.cues.busyTimer }) : CuesAdvance s' t' := by
  obtain ⟨timer, hcues⟩ : ∃ timer, s'.cues = { s.cues with busyTimer := timer } := ⟨_, hcues⟩
  obtain ⟨timer', hcues'⟩ : ∃ timer, t'.cues = { t.cues with busyTimer := timer } := ⟨_, hcues'⟩
  have hs : s = { s with
      slots := s'.slots, params := s'.params, cues := { s'.cues with busyTimer := s.cues.busyTimer } } := by
    rw [hslots, hparams, hcues]
  have ht : t = { t with slots := t'.slots, clock := t'.clock, cues := { t'.cues with busyTimer := t.cues.busyTimer } } := by
    rw [hslots', hclock', hcues']
  rw [hs, ht] at h
  exact h

end Reads

/-! ## From the state before the event to the state after it -/

/-- The advance `a` of the clock of `s` is delivered in `u`, which has the departures, cues and notices of `s`. -/
structure TimeFrom (a : Advance) (s u : State) : Prop where
  slots : u.slots = s.slots
  rowMap : u.rowMap = s.rowMap
  footnotes : u.footnotes = s.footnotes
  cues : u.cues = { s.cues with busyTimer := u.cues.busyTimer }
  notices : u.notices = s.notices
  params : u.params = s.params
  old : a.old = s.clock.t
  time : u.clock.t = s.clock.t
  isSet : u.clock.isSet = true

/-- `t` is `u` as far as time concerns it, but for the pending set. -/
structure TimeKept (u t : State) : Prop where
  slots : t.slots = u.slots
  rowMap : t.rowMap = u.rowMap
  footnotes : t.footnotes = u.footnotes
  clock : t.clock = u.clock
  params : t.params = u.params
  notices : t.notices = u.notices
  cues : t.cues = { u.cues with busyTimer := t.cues.busyTimer }

theorem TimeKept.trans {u v t : State} (h : TimeKept u v) (h' : TimeKept v t) : TimeKept u t where
  slots := h'.slots.trans h.slots
  rowMap := h'.rowMap.trans h.rowMap
  footnotes := h'.footnotes.trans h.footnotes
  clock := h'.clock.trans h.clock
  params := h'.params.trans h.params
  notices := h'.notices.trans h.notices
  cues := by
    have hv := h'.cues
    rw [h.cues] at hv
    exact hv

theorem TimeKept.sameContent {u t : State} (h : TimeKept u t) : SameContent u t :=
  sameContent_of_eq h.slots h.rowMap h.footnotes h.clock h.params

theorem timeKept_settle (s u : State) : TimeKept u (settle s u) := by
  rw [settle_eq]
  exact ⟨rfl, rfl, rfl, rfl, rfl, rfl, rfl⟩

theorem MarksOnly.timeKept {u t : State} (h : MarksOnly u t) : TimeKept u t := by
  obtain ⟨_, _, rfl⟩ := h
  exact ⟨rfl, rfl, rfl, rfl, rfl, rfl, rfl⟩

section Passes

variable {a : Advance} {changed : Bool} {was s u t : State}

/-- After the blocks' stages nothing but marks. -/
theorem timeAdvance_kept (h : a.happens = true) : TimeKept (minutePassed a u).1 (timeAdvance a changed was u) := by
  obtain ⟨n, hmarks⟩ := timeAdvance_handed (changed := changed) (was := was) (u := u) h
  have hfree : TimeKept (minutePassed a u).1 { (minutePassed a u).1 with freeCount := n } := ⟨rfl, rfl, rfl, rfl, rfl, rfl, rfl⟩
  exact hfree.trans hmarks.timeKept

theorem timeAdvance_kept_not (h : a.happens = false) : TimeKept u (timeAdvance a changed was u) := by
  rw [timeAdvance_not h]
  split
  · exact (handMark_frame _ u).timeKept
  · exact (MarksOnly.refl u).timeKept

/-- The marks handed over in a time advance are those asked for. -/
theorem TimeFrom.asks (h : TimeFrom a s u) (hwas : SameContent s was) (hset : a.happens = false → s.clock.isSet = true)
    (hdisplay : TimeKept (timeAdvance a changed was u) t) :
    ∃ ms, JoinedBy ms u (timeAdvance a changed was u) ∧ AsksFor (a.minuteEvent || changed) s t ms := by
  have hmark : clockMark u = clockMark s := by rw [clockMark, clockMark, h.params]
  cases hhappens : a.happens with
  | false =>
    refine ⟨if a.minuteEvent || changed then [clockMark s] else [], ?_, asksFor_of_sameContent ?_ ?_⟩
    · rw [timeAdvance_not hhappens, minuteEvent_of_not hhappens, Bool.false_or, hmark]
      cases changed with
      | false => exact .refl u
      | true => exact JoinedBy.handMarks (ms := [clockMark s]) (fun x hx => by rw [List.mem_singleton.1 hx]; rfl) u
    · have hsame : SameContent s u := sameContent_of_time h.slots h.rowMap h.footnotes h.params h.time
        (h.isSet.trans (hset hhappens).symm)
      have hkept := ((timeAdvance_kept_not hhappens).trans hdisplay).sameContent
      exact ⟨fun row => (hkept.1 row).trans (hsame.1 row), fun p => (hkept.2 p).trans (hsame.2 p)⟩
    · exact (((timeAdvance_kept_not hhappens).trans hdisplay).notices).trans h.notices ▸ rfl
  | true =>
    obtain ⟨hdisplaySecond, hparams, hnotices, -⟩ := secondPassed_frame a u
    have hminute := minutePassed_frame a u
    have hkept := (timeAdvance_kept hhappens).trans hdisplay
    have hcontent : SameContent (secondPassed a u) t := by
      have hfirst : SameContent (secondPassed a u) (minutePassed a u).1 := by
        rw [hminute]
        exact sameContent_of_eq rfl rfl rfl rfl rfl
      have hlast := hkept.sameContent
      exact ⟨fun row => (hlast.1 row).trans (hfirst.1 row), fun p => (hlast.2 p).trans (hfirst.2 p)⟩
    have hshown : t.notices.shown = (minutePassed a u).1.notices.shown := by rw [hkept.notices]
    have hparams' : (secondPassed a u).params = s.params := hparams.trans h.params
    have hdrops := mem_contentMarks none was (secondPassed a u)
    rw [hparams'] at hdrops
    have hboard : ∀ k, s.params.boardBase + (k + 1) - 1 = s.params.boardBase + k := fun k => by omega
    have hrows : ∀ row, rowContent was row ≠ rowContent (secondPassed a u) row ↔ rowContent s row ≠ rowContent t row := fun row => by
      rw [hwas.1 row, hcontent.1 row]
    have hboards : ∀ p, boardContent was p ≠ boardContent (secondPassed a u) p ↔ boardContent s p ≠ boardContent t p := fun p => by
      rw [hwas.2 p, hcontent.2 p]
    simp only [hboard, hrows, hboards] at hdrops
    have hticker : (∀ x ∈ (minutePassed a u).2, x.cause = none ∧ x.drop = s.params.tickerDrop ∧
        s.notices.shown ≠ t.notices.shown) ∧
        (s.notices.shown ≠ t.notices.shown → ∃ x ∈ (minutePassed a u).2, x.drop = s.params.tickerDrop) := by
      rw [hshown]
      unfold minutePassed
      split
      · have hmarks := noticeMinutes_marks (passed := a.minutes) (s := secondPassed a u)
        rw [hparams', hnotices, h.notices] at hmarks
        exact hmarks
      · exact ⟨nofun, fun hne => absurd (by rw [hnotices, h.notices]) hne⟩
    obtain ⟨hfrom, hto⟩ := hticker
    have hflatten : (advanceMarks a changed was u).flatten = contentMarks none was (secondPassed a u) ++
        ((minutePassed a u).2 ++ if a.minuteEvent || changed then [clockMark s] else []) := by
      rw [advanceMarks, hmark]
      simp
    refine ⟨(advanceMarks a changed was u).flatten, ?_, ?_⟩
    · rw [timeAdvance_happens hhappens]
      have hcause : ∀ x ∈ (advanceMarks a changed was u).flatten, x.cause = none := fun x hx => by
        rw [hflatten] at hx
        rcases List.mem_append.1 hx with hmem | hmem
        · exact (contentMarks_cause x hmem).2
        · rcases List.mem_append.1 hmem with hmem | hmem
          · exact (hfrom x hmem).1
          · split at hmem
            · rw [List.mem_singleton.1 hmem]
              rfl
            · cases hmem
      exact (JoinedBy.handGroups hcause (minutePassed a u).1).of_display
        ((congrArg State.display hminute).trans hdisplaySecond).symm rfl
    · rw [hflatten]
      refine ⟨fun row hrow hne => ?_, fun k hk hne => ?_, fun hclock => ?_, fun hne => ?_, fun x hx => ?_⟩
      · obtain ⟨x, hx, hdrop⟩ := List.mem_map.1 ((hdrops _).2 (.inl ⟨row, hrow, rfl, hne⟩))
        exact ⟨x, List.mem_append_left _ hx, hdrop⟩
      · obtain ⟨x, hx, hdrop⟩ := List.mem_map.1 ((hdrops _).2 (.inr ⟨k, hk, rfl, hne⟩))
        exact ⟨x, List.mem_append_left _ hx, hdrop⟩
      · rw [if_pos hclock]
        exact List.mem_append_right _ (List.mem_append_right _ (List.mem_singleton.2 rfl))
      · obtain ⟨x, hx, hdrop⟩ := hto hne
        exact ⟨x, List.mem_append_right _ (List.mem_append_left _ hx), hdrop⟩
      · rcases List.mem_append.1 hx with hmem | hmem
        · obtain ⟨hurgent, hcause⟩ := contentMarks_cause x hmem
          exact .inr (.inr ⟨hurgent, hcause, (hdrops _).1 (List.mem_map_of_mem hmem)⟩)
        · rcases List.mem_append.1 hmem with hmem | hmem
          · obtain ⟨-, hdrop, hne⟩ := hfrom x hmem
            exact .inr (.inl ⟨hne, hdrop⟩)
          · split at hmem
            · rename_i hclock
              rw [List.mem_singleton.1 hmem]
              exact .inl ⟨hclock, rfl⟩
            · cases hmem

/-- What a change of T brings to departures, cues and notices, where the marks are as asked for. -/
theorem TimeFrom.passes (h : TimeFrom a s u) (hkept : TimeKept (timeAdvance a changed was u) t)
    (hmarks : AdvanceMarks (a.minuteEvent || decide (s.clock.state ≠ t.clock.state)) s t) : TimePasses a.roll a.leaving s t := by
  have hclock : t.clock.t = a.new := by
    rw [hkept.clock, timeAdvance_clock_of_old (h.old.trans h.time.symm)]
  unfold TimePasses
  rw [hclock, ← h.old]
  cases hhappens : a.happens with
  | false =>
    obtain ⟨hleaving, hroll, hnew⟩ := happens_eq_false hhappens
    have hall := (timeAdvance_kept_not (changed := changed) (was := was) (u := u) hhappens).trans hkept
    have hcues := hall.cues
    rw [h.cues] at hcues
    rw [minuteEvent_of_not hhappens, Bool.false_or] at hmarks
    simp only
    rw [if_pos ⟨hleaving, hroll, hnew⟩]
    exact ⟨hall.slots.trans h.slots, hall.rowMap.trans h.rowMap, hall.footnotes.trans h.footnotes, hall.notices.trans h.notices,
      hcues, hmarks⟩
  | true =>
    obtain ⟨-, -, hnotices, -⟩ := secondPassed_frame a u
    have hall := (timeAdvance_kept (changed := changed) (was := was) (u := u) hhappens).trans hkept
    have hminute := minutePassed_frame a u
    have hsecond : TimeKept { secondPassed a u with notices := (minutePassed a u).1.notices } t := by
      rw [← hminute]
      exact hall
    have hcues : t.cues = { (secondPassed a u).cues with busyTimer := t.cues.busyTimer } := hsecond.cues
    have hset : (setT a.new u).clock.isSet = true := h.isSet
    have hnot : ¬(a.leaving = false ∧ a.roll = false ∧ a.new = a.old) := fun ⟨hleaving, hroll, hnew⟩ => by
      simp [Advance.happens, hleaving, hroll, hnew] at hhappens
    simp only
    rw [if_neg hnot]
    refine ⟨?_, ?_, ?_, hmarks⟩
    · exact (slotsAdvance_advanceSlots (a := a) hset).of_eq h.slots.symm h.rowMap.symm h.footnotes.symm h.params.symm hsecond.slots
        hsecond.rowMap hsecond.footnotes hsecond.clock
    · have hsame : s.cues = { u.cues with busyTimer := s.cues.busyTimer } := by rw [h.cues]
      exact (cuesAdvance_advanceSlots (a := a) hset).of_eq h.slots.symm h.params.symm hsame hsecond.slots hsecond.clock hcues
    · have hminutes : (if a.minuteEvent then NoticesAdvance a.minutes s t else t.notices = s.notices) := by
        have hlast : t.notices = (minutePassed a u).1.notices := hall.notices
        unfold minutePassed at hlast
        by_cases hevent : a.minuteEvent = true
        · rw [if_pos hevent] at hlast ⊢
          exact noticesAdvance_noticeMinutes.of_eq (hnotices.trans h.notices).symm hlast
        · rw [if_neg hevent] at hlast ⊢
          exact hlast.trans (hnotices.trans h.notices)
      exact hminutes

/-- What a time advance at the end of an event brings (R52, R53). -/
theorem TimeFrom.settles (h : TimeFrom a s u) (hwas : SameContent s was) (hset : a.happens = false → s.clock.isSet = true)
    (hdisplay : u.display = s.display) (hchanged : changed = decide (s.clock.state ≠ t.clock.state))
    (hkept : TimeKept (timeAdvance a changed was u) t) (hmarks : t.display = (timeAdvance a changed was u).display) :
    TimePasses a.roll a.leaving s t := by
  obtain ⟨ms, hjoined, hasks⟩ := h.asks hwas hset hkept
  rw [hchanged] at hasks
  exact h.passes hkept (hasks.advanceMarks (hjoined.of_display hdisplay.symm hmarks))

end Passes

end Sys2Proof.Machine
end

section
/-! PROOFS. Ticks and pulses move the departures; the rows that name what a tick runs out (O29, O30). -/

namespace Sys2Proof.Machine

set_option Elab.async false

/-! ## The advance of a tick or a pulse -/

/-- A clock that an event gives a new value is set, before and after. -/
theorem event_isSet {cause : TickCause} {c d : Clock} {roll : Bool} (h : c.event cause = some (d, roll)) :
    c.isSet = true ∧ d.isSet = true := by
  have htick : ∀ e : Clock, e.tick.1.state = e.state := fun e => by
    unfold Clock.tick
    split
    · rfl
    · split
      · rfl
      · split <;> rfl
  have hsnap : ∀ e : Clock, e.snap.1.state = e.state := fun e => by
    unfold Clock.snap
    split <;> rfl
  have hticked : ∀ e : Clock, e.state ≠ .unset → e.tick = (d, roll) → d.isSet = true := fun e he heq => by
    have hd : e.tick.1 = d := congrArg Prod.fst heq
    exact (isSet_iff d).2 (by rw [← hd, htick]; exact he)
  have hset : c.isSet = true ↔ c.state ≠ .unset := isSet_iff c
  unfold Clock.event at h
  split at h
  · cases h
  · rename_i hstate
    rw [hset, hstate]
    exact ⟨nofun, hticked c (by rw [hstate]; exact nofun) (Option.some.inj h)⟩
  · rename_i hstate
    rw [hset, hstate]
    exact ⟨nofun, hticked c (by rw [hstate]; exact nofun) (Option.some.inj h)⟩
  · rename_i hstate
    rw [hset, hstate]
    split at h
    · split at h
      · cases h
      · exact ⟨nofun, hticked c (by rw [hstate]; exact nofun) (Option.some.inj h)⟩
    · cases h
  · cases h
  · rename_i hunset hrunning
    refine ⟨hset.2 fun he => hunset he, ?_⟩
    split at h
    · cases h
    · exact hticked c.relock nofun (Option.some.inj h)
    · have hd : c.relock.snap.1 = d := congrArg Prod.fst (Option.some.inj h)
      exact (isSet_iff d).2 (by rw [← hd, hsnap]; exact nofun)

/-- The advance of a clock event. -/
def eventAdvance (s : State) (c : Clock) (roll : Bool) : Advance := { old := s.clock.t, new := c.t, roll := roll, leaving := false }

/-- The state in which the advance of a clock event is delivered. -/
def eventDelivered (cause : TickCause) (s : State) (c : Clock) : State :=
  pendIf (decide (c.state ≠ s.clock.state)) .clockChange (setClockKeepT c (countReference cause s))

section Event

variable {cause : TickCause} {s : State} {c : Clock} {roll : Bool}

theorem eventDelivered_frame : ∃ refTime att, eventDelivered cause s c =
    { s with clock := { c with t := s.clock.t }, refTime := refTime, att := att } := by
  unfold eventDelivered pendIf
  cases cause <;> split <;> exact ⟨_, _, rfl⟩

theorem timeEvent_eq (h : s.clock.event cause = some (c, roll)) : timeEvent cause s =
    timeAdvance (eventAdvance s c roll) (decide (c.state ≠ s.clock.state)) (countReference cause s) (eventDelivered cause s c) := by
  rw [timeEvent_some h]
  cases cause <;> rfl

theorem timeFrom_event (h : s.clock.event cause = some (c, roll)) :
    TimeFrom (eventAdvance s c roll) s (eventDelivered cause s c) := by
  have hset := (event_isSet h).2
  obtain ⟨refTime, att, heq⟩ := eventDelivered_frame (cause := cause) (s := s) (c := c)
  rw [heq]
  exact ⟨rfl, rfl, rfl, rfl, rfl, rfl, rfl, rfl, hset⟩

/-- What a tick or a pulse that gives the clock a new value moves (R52, R53). -/
theorem timePasses_event (h : s.clock.event cause = some (c, roll)) : TimePasses roll false s (settle s (timeEvent cause s)) := by
  obtain ⟨hclock, -⟩ := timeEvent_facts h
  have hkept := timeKept_settle s (timeEvent cause s)
  have hdisplay : (settle s (timeEvent cause s)).display = (timeEvent cause s).display := by rw [settle_eq]
  have hchanged : decide (c.state ≠ s.clock.state) = decide (s.clock.state ≠ (settle s (timeEvent cause s)).clock.state) := by
    rw [hclock]
    exact decide_eq_decide.2 ne_comm
  rw [timeEvent_eq h] at hkept hdisplay hchanged ⊢
  refine (timeFrom_event h).settles ?_ (fun _ => (event_isSet h).1) ?_ hchanged hkept hdisplay
  · cases cause <;> exact sameContent_of_eq rfl rfl rfl rfl rfl
  · obtain ⟨refTime, att, heq⟩ := eventDelivered_frame (cause := cause) (s := s) (c := c)
    rw [heq]

theorem params_event (cause : TickCause) (s : State) : (settle s (timeEvent cause s)).params = s.params := by
  rw [settle_eq]
  exact (timeEvent_only cause s).same .params

end Event

/-- Settles O30: each second and pulse that moves the clock is a time advance of its seconds. -/
theorem secondEventMovesSlots : Obligations.SecondEventMovesSlots := by
  unfold Obligations.SecondEventMovesSlots
  intro s hpin ht rolls free
  refine ⟨fun hticks => ?_, fun hfree hsource => ?_, fun hfree hsource => ?_⟩
  · have hevent := event_reference hticks
    rw [tick_eq ht] at hevent
    exact ⟨_, exec_reference hpin, (timeEvent_facts hevent).1, params_event .reference s, timePasses_event hevent⟩
  · have hevent := event_pulse_second hfree hsource
    rw [tick_eq (c := s.clock.relock) ht] at hevent
    exact ⟨_, exec_pulse hpin, (congrArg Clock.t (timeEvent_facts hevent).1).trans rfl, params_event .pulse s, timePasses_event hevent⟩
  · have hevent := event_pulse_minute hfree hsource
    rw [snap_eq (c := s.clock.relock) ht] at hevent
    exact ⟨_, exec_pulse hpin, params_event .pulse s, congrArg Clock.t (timeEvent_facts hevent).1, timePasses_event hevent⟩

/-! ## What a tick runs out (R54, R81, R82, R162) -/

section RunsOut

variable {cause : TickCause} {s : State} {c : Clock} {roll : Bool}

theorem pendingAdvance_some {a : Advance} (h : pendingAdvance cause s = some a) :
    ∃ c roll, s.clock.event cause = some (c, roll) ∧ a = eventAdvance s c roll ∧ a.happens = true := by
  unfold pendingAdvance at h
  split at h
  · rename_i c roll hevent
    dsimp only at h
    split at h
    · rename_i hhappens
      obtain rfl := Option.some.inj h
      exact ⟨c, roll, hevent, rfl, hhappens⟩
    · cases h
  · cases h

/-- The state after a clock event that is a time advance, as far as time concerns it. -/
theorem timeEvent_minutePassed (h : s.clock.event cause = some (c, roll)) (hhappens : (eventAdvance s c roll).happens = true) :
    TimeKept (minutePassed (eventAdvance s c roll) (eventDelivered cause s c)).1 (settle s (timeEvent cause s)) := by
  rw [timeEvent_eq h]
  exact (timeAdvance_kept hhappens).trans (timeKept_settle s _)

theorem exec_tickRow (hpin : s.resetPin = false) : exec (tickRow cause) s = .next (settle s (timeEvent cause s)) := by
  cases cause with
  | reference => exact exec_reference hpin
  | pulse => exact exec_pulse hpin

theorem Slot.timed_highlight (roll : Bool) (q : Params) (c : Clock) (x : Slot) : (x.timed roll q c).highlight = x.highlight := by
  have hrolled : (x.rolledBy roll).highlight = x.highlight := by
    unfold Slot.rolledBy Slot.rebase
    cases roll with
    | false => rfl
    | true =>
      rw [if_pos rfl]
      split
      · split
        · split <;> rfl
        · rfl
      · rfl
  obtain he | ⟨-, n, -, he⟩ := Slot.advance_cases q c (x.rolledBy roll)
  · rw [Slot.timed, he, hrolled]
  · rw [Slot.timed, he]
    exact hrolled

/-- A highlight with no more seconds left than pass has stopped. -/
theorem Slot.passed_highlight {roll : Bool} {seconds left : Nat} {q : Params} {c : Clock} {x : Slot} (h : x.highlight = some left)
    (hle : left ≤ seconds) : (x.passed roll seconds q c).highlight = none := by
  unfold Slot.passed
  split
  · rfl
  · show (x.timed roll q c).highlight.bind (countDown seconds) = none
    rw [Slot.timed_highlight, h]
    exact if_pos hle

/-- A footnote with no more seconds left than pass is gone. -/
theorem footnoteAt_advanceSlots {a : Advance} {board : Nat} {n : Footnote} (hset : s.clock.isSet = true)
    (h : footnoteAt s board = some n) (hle : n.left ≤ a.seconds) : footnoteAt (advanceSlots a s) board = none := by
  have hat : ∀ (f : Option Footnote → Option Footnote), f none = none →
      (s.footnotes.map f).getD (board - 1) none = f (footnoteAt s board) := fun f hf => by
    conv_lhs => rw [← hf]
    exact List.getD_map ..
  rw [footnoteAt, footnotes_advanceSlots hset, hat _ rfl, h]
  show (if _ then none else Option.map _ (ranDown a.seconds (some n.left))) = none
  have hout : ranDown a.seconds (some n.left) = none := if_pos hle
  rw [hout]
  split <;> rfl

theorem footnoteAt_of_eq {t : State} (h : t.footnotes = s.footnotes) (board : Nat) : footnoteAt t board = footnoteAt s board := by
  rw [footnoteAt, footnoteAt, h]

/-- Settles O29: the rows that name what runs out are the tick, and it has run out. -/
theorem tickEndsWhatRunsOut : Obligations.TickEndsWhatRunsOut := by
  unfold Obligations.TickEndsWhatRunsOut
  intro cause s hpin
  refine ⟨fun adv hadv => ?_, fun c roll hevent hslew hzero => ?_⟩
  · obtain ⟨c, roll, hevent, rfl, hhappens⟩ := pendingAdvance_some hadv
    have hkept := timeEvent_minutePassed hevent hhappens
    have hminute := minutePassed_frame (eventAdvance s c roll) (eventDelivered cause s c)
    have hset : (setT (eventAdvance s c roll).new (eventDelivered cause s c)).clock.isSet = true := (timeFrom_event hevent).isSet
    have hfrom := timeFrom_event hevent
    refine ⟨fun board n hboard hn hle => ?_, fun i left hleft hle => ?_, fun i hactive hminutes hminuteEvent hle => ?_⟩
    · have hoccurs : footnoteDue board cause s = true := by simp [footnoteDue, hadv, hn, hboard, hle]
      refine ⟨_, exec_of_occurs (c := .footnoteExpiry board cause) rfl hpin hoccurs, exec_tickRow hpin, ?_⟩
      have hnote := footnoteAt_advanceSlots (a := eventAdvance s c roll) (board := board) (n := n) hset
        ((footnoteAt_of_eq hfrom.footnotes board).trans hn) hle
      exact (footnoteAt_of_eq (hkept.footnotes.trans (congrArg State.footnotes hminute)) board).trans hnote
    · have hoccurs : highlightDue i cause s = true := by simp [highlightDue, hadv, hleft, hle]
      refine ⟨_, exec_of_occurs (c := .highlightExpiry i cause) rfl hpin hoccurs, exec_tickRow hpin, ?_⟩
      have hslots : (settle s (timeEvent cause s)).slots = (secondPassed (eventAdvance s c roll) (eventDelivered cause s c)).slots :=
        hkept.slots.trans ((congrArg State.slots hminute).trans rfl)
      have hslot := slotAt_advanceSlots (eventAdvance s c roll) hset i
      have hbefore : slotAt (setT (eventAdvance s c roll).new (eventDelivered cause s c)) i = slotAt s i :=
        congrArg (fun l => l.getD i Slot.reset) hfrom.slots
      rw [hbefore] at hslot
      have hafter : slotAt (settle s (timeEvent cause s)) i = slotAt (secondPassed (eventAdvance s c roll) (eventDelivered cause s c)) i :=
        congrArg (fun l => l.getD i Slot.reset) hslots
      exact (congrArg Slot.highlight (hafter.trans hslot)).trans (Slot.passed_highlight hleft hle)
    · have hoccurs : noticeDue i cause s = true := by simp [noticeDue, hadv, hactive, hminutes, hminuteEvent, hle]
      refine ⟨_, exec_of_occurs (c := .noticeExpiry i cause) rfl hpin hoccurs, exec_tickRow hpin, ?_⟩
      have hbefore : entryAt (secondPassed (eventAdvance s c roll) (eventDelivered cause s c)) i = entryAt s i := by
        obtain ⟨-, -, hnotices, -⟩ := secondPassed_frame (eventAdvance s c roll) (eventDelivered cause s c)
        rw [entryAt, hnotices, hfrom.notices]
        rfl
      have hentry : entryAt (settle s (timeEvent cause s)) i = (entryAt s i).age (eventAdvance s c roll).minutes := by
        rw [entryAt, hkept.notices, minutePassed, if_pos hminuteEvent, ← hbefore]
        exact entryAt_noticeMinutes i
      have hage : (entryAt s i).age (eventAdvance s c roll).minutes = { Entry.emptied .expired (entryAt s i) with
          state := if (entryAt s i).replacing then .fetching else .empty, errAddr := (entryAt s i).errAddr } :=
        (if_pos ⟨hactive, hminutes⟩).trans (if_pos hle)
      have hafter := hentry.trans hage
      rw [show effect (.noticeExpiry i cause) s = timeEvent cause s from rfl, hafter]
      exact ⟨rfl, rfl, rfl⟩
  · have hoccurs : slewEnds cause s = true := by simp [slewEnds, hevent, hslew, hzero]
    refine ⟨_, exec_of_occurs (c := .slewComplete cause) rfl hpin hoccurs, exec_tickRow hpin, ?_⟩
    exact (congrArg Clock.slew (timeEvent_facts hevent).1).trans hzero

end RunsOut

end Sys2Proof.Machine
end

section
/-! PROOFS. SET CLOCK (R55 to R57): a command that moves the time (O31). -/

namespace Sys2Proof.Machine

set_option Elab.async false

/-! ## Words noted are not forgotten within an event (R13) -/

/-- From `s` to `t` words were only noted. -/
def NotedGrows (s t : State) : Prop := s.mem.noted <+: t.mem.noted

theorem NotedGrows.of_eq {s t : State} (h : t.mem.noted = s.mem.noted) : NotedGrows s t := by
  rw [NotedGrows, h]

theorem NotedGrows.trans {s t u : State} (h : NotedGrows s t) (h' : NotedGrows t u) : NotedGrows s u := List.IsPrefix.trans h h'

theorem notedGrows_noteIf (b : Bool) (o : Nat) (s : State) : NotedGrows s (noteIf b o s) := List.prefix_append ..

theorem notedGrows_removeCues (test : Cue → Bool) (s : State) : NotedGrows s (removeCues test s) :=
  notedGrows_noteIf _ summaryOffset { s with cues := s.cues.remove test }

theorem notedGrows_makeCue (c : Cue) (s : State) : NotedGrows s (makeCue c s) := by
  refine .trans (.of_eq ?_) (notedGrows_noteIf (s.cues.placeCue c).2.joins summaryOffset
    (pendIf (s.cues.placeCue c).2.lossy .cueDropped { s with cues := (s.cues.placeCue c).1 }))
  unfold pendIf
  split <;> rfl

theorem notedGrows_forget (i : Nat) (s : State) : NotedGrows s (forget i s) :=
  (notedGrows_removeCues (ofSlot i) s).trans (.of_eq rfl)

theorem notedGrows_moveReport (i : Nat) (l n : SlotState) (s : State) : NotedGrows s (moveReport i l n s) := by
  unfold moveReport
  split
  · split
    · split
      · exact notedGrows_makeCue _ s
      · exact .of_eq rfl
    · exact .of_eq rfl
  · exact notedGrows_removeCues _ s
  · exact notedGrows_removeCues _ s
  · exact notedGrows_forget i s
  · exact .of_eq rfl

theorem notedGrows_reportMoves (moves : List (Nat × SlotState × SlotState)) (s : State) : NotedGrows s (reportMoves moves s) := by
  induction moves generalizing s with
  | nil => exact .of_eq rfl
  | cons m rest ih => exact (notedGrows_moveReport m.1 m.2.1 m.2.2 s).trans (ih _)

theorem notedGrows_advanceSlots {a : Advance} {s : State} (hset : s.clock.isSet = true) : NotedGrows s (advanceSlots a s) := by
  obtain ⟨moves, n, -, heq⟩ := advanceSlots_eq a hset
  obtain ⟨rows, att, hrolled, -⟩ := rolled_frame a.roll s
  have hfirst : NotedGrows s (rolledReported a.roll s) :=
    .trans (.of_eq (by rw [hrolled])) (notedGrows_reportMoves (rollMoves a.roll s) (rolled a.roll s))
  have hlast := notedGrows_reportMoves moves { moved (rolledReported a.roll s) with freeCount := n }
  rw [heq]
  exact (hfirst.trans (.of_eq rfl)).trans (hlast.trans (.of_eq rfl))

theorem notedGrows_timeAdvance {a : Advance} {changed : Bool} {was s : State} (hset : s.clock.isSet = true) :
    NotedGrows s (timeAdvance a changed was s) := by
  cases hhappens : a.happens with
  | false =>
    rw [timeAdvance_not hhappens]
    split
    · exact .of_eq ((handMark_only _ s).same .noted)
    · exact .of_eq rfl
  | true =>
    have hsecond : NotedGrows s (secondPassed a s) := .trans (t := setT a.new s) (.of_eq rfl) (notedGrows_advanceSlots hset)
    have hminute : (minutePassed a s).1.mem.noted = (secondPassed a s).mem.noted := by rw [minutePassed_frame]
    rw [timeAdvance_happens hhappens]
    exact hsecond.trans ((NotedGrows.of_eq hminute).trans (.of_eq ((handGroups_only _ _).same .noted)))

/-- A word noted on the way is marked at the end of the event. -/
theorem marked_of_noted {s u t : State} {o : Nat} (ho : o ∈ writtenBack) (hbefore : NotedGrows s u)
    (hafter : NotedGrows (noteIf true o u) t) : ∃ e ∈ (settle s t).mem.writeBacks, e.offset = o := by
  obtain ⟨before, hu⟩ := hbefore
  obtain ⟨after, ht⟩ := hafter
  have hnoted : t.mem.noted = s.mem.noted ++ (before ++ [o] ++ after) := by
    rw [← ht]
    show u.mem.noted ++ [o] ++ after = _
    rw [← hu]
    simp
  have hmarked : o ∈ markedBy s t := (mem_markedBy s t o).2 ⟨ho, .inr (by rw [hnoted, List.drop_left]; simp)⟩
  have hset : o ∈ ((markedBy s t).foldl MemPath.mark t.mem).writeBacks.map (·.offset) := (mem_foldl_mark _ _ _).2 (.inr hmarked)
  obtain ⟨e, he, hoffset⟩ := List.mem_map.1 hset
  refine ⟨e, ?_, hoffset⟩
  rw [settle, markWords, markedBy_tendBusyTimer]
  exact he

/-! ## A command that moves the time -/

section Timed

variable {err : Bool} {s u : State}

/-- The command completes after a time advance. -/
theorem settle_timed (h : Only timeLeaves (commandTaken err s) u) (results : List Word) :
    let t := settle s (completeDone results u)
    Answered err .done .none (resultWords results) s t ∧ (∀ e ∈ takenEvents s ++ [.commandDone], IsPending e t) ∧
      (∀ e, IsPending e u → IsPending e t) ∧ OnlyTime { s with mem := t.mem, cmd := t.cmd } t ∧ TimeKept u t ∧
      t.display = u.display := by
  intro t
  obtain ⟨events, hatt⟩ := (h.same .flags : FlagsPended _ _)
  have hu := h.overlay
  have hcmd : u.cmd = (commandTaken err s).cmd := by
    rw [hu]
    rfl
  have hmem : u.mem = { s.mem.answered (.writeDone err) with noted := u.mem.noted } := by
    conv_lhs => rw [hu]
    rfl
  have hexecuting : Executing err events s u := ⟨hcmd, ⟨_, hmem⟩, by rw [hatt, after_append]; rfl⟩
  obtain ⟨hanswered, hafter, -⟩ := settle_complete (w := { u with mem := s.mem, cmd := s.cmd, att := s.att }) hexecuting rfl .done
    .none results
  have hcomplete := complete_eq .done .none results u
  have hkept : TimeKept u (completeDone results u) := by
    rw [completeDone, hcomplete]
    exact ⟨rfl, rfl, rfl, rfl, rfl, rfl, rfl⟩
  have hafter : t.att = s.att.after (takenEvents s ++ (events ++ [.commandDone])) := hafter
  have hflags : t.att = (u.att).after [.commandDone] := by
    rw [← List.append_assoc, after_append, ← hexecuting.att] at hafter
    exact hafter
  refine ⟨hanswered, fun e he => ?_, fun e he => ?_, ?_, hkept.trans (timeKept_settle s _), ?_⟩
  · rw [IsPending, hafter]
    refine isPending_after (.inl ?_)
    rcases List.mem_append.1 he with hmem | hmem
    · exact List.mem_append_left _ hmem
    · exact List.mem_append_right _ (List.mem_append_right _ hmem)
  · rw [IsPending, hflags]
    exact isPending_after (.inr he)
  · have hall : completeDone results u =
        { u with cmd := (completeDone results u).cmd, att := (completeDone results u).att } := hcomplete
    simp only [t]
    rw [OnlyTime, settle_eq, hall, hu]
    rfl
  · simp only [t]
    rw [settle_eq, completeDone, hcomplete]

end Timed

/-! ## SET CLOCK -/

section SetClock

variable {err : Bool} {s : State} {target : Nat}

/-- The clock leaves UNSET at a command (R55). -/
theorem settle_leaveUnset (hunset : s.clock.state = .unset) (results : List Word) :
    let t := settle s (completeDone results (leaveUnset target (commandTaken err s)))
    Answered err .done .none (resultWords results) s t ∧
      (∀ e ∈ takenEvents s ++ [.clockChange, .commandDone], IsPending e t) ∧
      t.clock = { s.clock with t := target, state := setState s.clock.source, slew := 0, holdNext := false } ∧
      TimePasses false true s t ∧ OnlyTime { s with mem := t.mem, cmd := t.cmd } t := by
  obtain ⟨u, hu⟩ : ∃ u, u = leaveUnset target (commandTaken err s) := ⟨_, rfl⟩
  have honly : Only timeLeaves (commandTaken err s) u := hu ▸ leaveUnset_only target (commandTaken err s)
  rw [← hu]
  obtain ⟨hanswered, hpending, hkeeps, honlyTime, hkept, hdisplay⟩ := settle_timed honly results
  intro t
  have hclock : t.clock = { s.clock with t := target, state := setState s.clock.source, slew := 0, holdNext := false } := by
    rw [hkept.clock, hu]
    exact leaveUnset_clock target (commandTaken err s)
  have hstate : setState s.clock.source ≠ .unset := by cases s.clock.source <;> decide
  refine ⟨hanswered, fun e he => ?_, hclock, ?_, honlyTime⟩
  · rcases List.mem_append.1 he with hmem | hmem
    · exact hpending e (List.mem_append_left _ hmem)
    · rcases List.mem_cons.1 hmem with rfl | hmem
      · refine hkeeps _ ?_
        rw [hu]
        exact (isPending_pend .clockChange _).of_flags ((timeAdvance_only _ _ _ _).same .flags)
      · exact hpending e (List.mem_append_right _ hmem)
  · obtain ⟨v, hv⟩ : ∃ v, v = pend .clockChange (setSlew 0 { commandTaken err s with
        clock := { s.clock with state := setState s.clock.source } }) := ⟨_, rfl⟩
    have hleave : u = timeAdvance { old := s.clock.t, new := target, roll := false, leaving := true } true (commandTaken err s) v := by
      rw [hu, hv]
      rfl
    have hfrom : TimeFrom { old := s.clock.t, new := target, roll := false, leaving := true } s v := by
      rw [hv]
      exact ⟨rfl, rfl, rfl, rfl, rfl, rfl, rfl, rfl, (isSet_iff _).2 hstate⟩
    refine hfrom.settles (changed := true) (was := commandTaken err s) (sameContent_of_eq rfl rfl rfl rfl rfl) nofun
      (by rw [hv]; rfl) ?_ (by rw [← hleave]; exact hkept) (by rw [← hleave]; exact hdisplay)
    rw [eq_comm, decide_eq_true_iff, hclock, hunset]
    exact hstate.symm

/-- The clock steps at a command (R56). -/
theorem settle_stepClock (hset : s.clock.state ≠ .unset) (roll : Bool) (results : List Word) :
    let t := settle s (completeDone results (stepClock target roll (commandTaken err s)))
    Answered err .done .none (resultWords results) s t ∧
      (∀ e ∈ takenEvents s ++ [.clockChange, .commandDone], IsPending e t) ∧ (roll = true → IsPending .dayRoll t) ∧
      t.clock = { s.clock with t := target, slew := 0, holdNext := false } ∧
      TimePasses roll false s t ∧ (∃ e ∈ t.mem.writeBacks, e.offset = 0x80) ∧ OnlyTime { s with mem := t.mem, cmd := t.cmd } t := by
  obtain ⟨u, hu⟩ : ∃ u, u = stepClock target roll (commandTaken err s) := ⟨_, rfl⟩
  have honly : Only timeLeaves (commandTaken err s) u := hu ▸ stepClock_only target roll (commandTaken err s)
  rw [← hu]
  obtain ⟨hanswered, hpending, hkeeps, honlyTime, hkept, hdisplay⟩ := settle_timed honly results
  obtain ⟨w, hw⟩ : ∃ w, w = pend .clockChange (setSlew 0 (commandTaken err s)) := ⟨_, rfl⟩
  have hstep : u = timeAdvance { old := s.clock.t, new := target, roll := roll, leaving := false } false (commandTaken err s)
      (noteIf true clockOffset w) := by
    rw [hu, hw]
    rfl
  have hisSet : (noteIf true clockOffset w).clock.isSet = true := by
    rw [hw]
    exact (isSet_iff _).2 hset
  intro t
  have hclock : t.clock = { s.clock with t := target, slew := 0, holdNext := false } := by
    rw [hkept.clock, hu]
    exact stepClock_clock target roll (commandTaken err s)
  refine ⟨hanswered, fun e he => ?_, fun hroll => hkeeps _ ?_, hclock, ?_, ?_, honlyTime⟩
  · rcases List.mem_append.1 he with hmem | hmem
    · exact hpending e (List.mem_append_left _ hmem)
    · rcases List.mem_cons.1 hmem with rfl | hmem
      · refine hkeeps _ ?_
        have hpend : IsPending .clockChange (noteIf true clockOffset w) := by
          rw [hw]
          exact isPending_pend .clockChange _
        rw [hstep]
        exact hpend.of_flags ((timeAdvance_only _ _ _ _).same .flags)
      · exact hpending e (List.mem_append_right _ hmem)
  · rw [hstep]
    exact timeAdvance_dayRoll hroll _ _ _
  · have hfrom : TimeFrom { old := s.clock.t, new := target, roll := roll, leaving := false } s (noteIf true clockOffset w) := by
      rw [hw] at hisSet ⊢
      exact ⟨rfl, rfl, rfl, rfl, rfl, rfl, rfl, rfl, hisSet⟩
    refine hfrom.settles (changed := false) (was := commandTaken err s) (sameContent_of_eq rfl rfl rfl rfl rfl)
      (fun _ => (isSet_iff _).2 hset) (by rw [hw]; rfl) ?_ (by rw [← hstep]; exact hkept) (by rw [← hstep]; exact hdisplay)
    rw [hclock]
    simp
  · have hnoted : (completeDone results u).mem = u.mem := by rw [completeDone, complete_eq]
    refine marked_of_noted (u := w) (by decide +kernel) (.of_eq (by rw [hw]; rfl)) ?_
    rw [NotedGrows, hnoted, hstep]
    exact notedGrows_timeAdvance hisSet

/-- The slew remainder is set at a command (R55, R56). -/
theorem settle_setSlew (d : Int) (results : List Word) :
    let t := settle s (completeDone results (setSlew d (commandTaken err s)))
    Answered err .done .none (resultWords results) s t ∧ t.att = s.att.after (takenEvents s ++ [.commandDone]) ∧
      OnlyCommand { s with clock := { s.clock with slew := d, holdNext := false } } t :=
  settle_complete (u := setSlew d (commandTaken err s)) (w := { s with clock := { s.clock with slew := d, holdNext := false } })
    ((executing_commandTaken err s).of_eq rfl rfl rfl) rfl .done .none results

/-- Settles O31: by the parameters, the clock state and the correction, a refusal, a set, a slew or a step. -/
theorem setClockSetsSlewsOrSteps : Obligations.SetClockSetsSlewsOrSteps := by
  unfold Obligations.SetClockSetsSlewsOrSteps
  intro err s a h ht w hh mm ss target d sum steps events
  have hexec := exec_of_taken (c := .setClock err) (act := setClockCommand) err h rfl rfl
  obtain ⟨p, hp⟩ : ∃ p, p = clockTargetOf s.cmd.staging := ⟨_, rfl⟩
  have hfields : p = { hh := hh, mm := mm, ss := ss, force := flag w 24 } := hp
  have hbad : p.bad = true ↔ 23 < hh ∨ 59 < mm ∨ 59 < ss := by
    rw [hfields]
    simp [ClockTarget.bad, or_assoc]
  have hnonneg : 0 ≤ target := Int.emod_nonneg _ (by decide)
  have hlt : target < 86400 := Int.emod_lt_of_pos _ (by decide)
  have htarget : targetT s.clock.roll p = target.toNat := by
    rw [hfields]
    rfl
  have hd : correction s.clock.t target.toNat = d := by
    rw [correction, Int.toNat_of_nonneg hnonneg]
  have hsteps : mustStep (commandTaken err s) p d = true ↔ steps := by
    rw [hfields]
    simp only [mustStep, Bool.or_eq_true, decide_eq_true_iff, or_assoc]
    exact Iff.rfl
  have hcommand : setClockCommand s.cmd.staging (commandTaken err s) =
      if p.bad then refuse .badParameter (commandTaken err s)
      else if s.clock.state = .unset then completeDone [1] (leaveUnset target.toNat (commandTaken err s))
      else if mustStep (commandTaken err s) p d then
        if d = 0 then completeDone [0] (setSlew 0 (commandTaken err s))
        else if sum < 0 then complete .refused .crossesRoll [0, signedWord d, 0] (commandTaken err s)
        else if 86400 ≤ sum then
          completeDone [3, signedWord d, 1] (stepClock (sum - 86400).toNat true (commandTaken err s))
        else completeDone [3, signedWord d, 0] (stepClock sum.toNat false (commandTaken err s))
      else completeDone [if d = 0 then 0 else 2, signedWord d] (setSlew d (commandTaken err s)) := by
    rw [← htarget] at hd ⊢
    simp only [sum, ← hd]
    rw [hp]
    rfl
  have hdlt : d < 43200 ∧ -43200 ≤ d := by omega
  refine ⟨_, hexec, fun hrange => ?_, fun hhh hmm hss => ?_⟩
  · rw [hcommand, if_pos (hbad.2 hrange)]
    exact settle_refuse err _ s
  · rw [hcommand, if_neg (fun hb => by have := hbad.1 hb; omega)]
    refine ⟨fun hunset => ?_, fun hset hnot => ?_, fun hset hyes hzero => ?_, fun hset hyes hne hneg => ?_,
      fun hset hyes hne hpos => ?_⟩
    · rw [if_pos hunset]
      obtain ⟨hanswered, hpending, hclock, hpasses, honly⟩ := settle_leaveUnset (err := err) (target := target.toNat) hunset [1]
      refine ⟨hanswered, hpending, hclock.trans ?_, hpasses, honly⟩
      have hstate : setState s.clock.source = if s.clock.source = .internal then .running else .freerun := by
        cases s.clock.source <;> rfl
      rw [hstate]
    · rw [if_neg hset, if_neg (mt hsteps.1 hnot)]
      exact settle_setSlew d _
    · rw [if_neg hset, if_pos (hsteps.2 hyes), if_pos hzero]
      exact settle_setSlew 0 _
    · rw [if_neg hset, if_pos (hsteps.2 hyes), if_neg hne, if_pos hneg]
      exact settle_complete (executing_commandTaken err s) (takenFrom_commandTaken err s) .refused .crossesRoll _
    · rw [if_neg hset, if_pos (hsteps.2 hyes), if_neg hne, if_neg (Int.not_lt.2 hpos)]
      by_cases hcross : 86400 ≤ sum
      · have hwrap : (sum % 86400).toNat = (sum - 86400).toNat := by
          simp only [sum] at hcross ⊢
          omega
        rw [if_pos hcross, if_pos hcross, hwrap, decide_eq_true hcross]
        obtain ⟨hanswered, hpending, hroll, hclock, hpasses, hmarked, honly⟩ :=
          settle_stepClock (err := err) (target := (sum - 86400).toNat) hset true [3, signedWord d, 1]
        exact ⟨hanswered, hpending, fun _ => hroll rfl, hclock, hpasses, hmarked, honly⟩
      · have hwrap : (sum % 86400).toNat = sum.toNat := by
          simp only [sum] at hcross hpos ⊢
          omega
        rw [if_neg hcross, if_neg hcross, hwrap, decide_eq_false hcross]
        obtain ⟨hanswered, hpending, -, hclock, hpasses, hmarked, honly⟩ :=
          settle_stepClock (err := err) (target := sum.toNat) hset false [3, signedWord d, 0]
        exact ⟨hanswered, hpending, fun hcross' => absurd hcross' hcross, hclock, hpasses, hmarked, honly⟩

end SetClock

end Sys2Proof.Machine
end

section
/-! PROOFS. A source and a roll minute that come into force (R47, R48, R58, R176), and the change of T they bring. -/

namespace Sys2Proof.Machine

set_option Elab.async false

/-! ## The source at the first configuration -/

/-- The source and the roll minute come into force. -/
def sourced (src : ClockSource) (s : State) : State := noteConfigured (applySource src s)

/-- The source changes with the configuration (R48). -/
def sourceChanges (src : ClockSource) (s : State) : Bool := !s.part.configured && decide (src ≠ s.clock.source)

section Sourced

variable {src : ClockSource} {s : State}

theorem applySource_eq (src : ClockSource) (s : State) : applySource src s = if sourceChanges src s then changeSource src s else s := by
  have hiff : (s.part.configured = true ∨ src = s.clock.source) ↔ ¬sourceChanges src s = true := by
    cases hconfigured : s.part.configured <;> simp [sourceChanges, hconfigured]
  unfold applySource
  by_cases h : sourceChanges src s = true
  · rw [if_pos h, if_neg fun hn => hiff.1 hn h]
  · rw [if_neg h, if_pos (hiff.2 h)]

theorem sourced_clock (src : ClockSource) (s : State) :
    (sourced src s).clock = if sourceChanges src s then s.clock.withSource src else s.clock := by
  show (applySource src s).clock = _
  rw [applySource_eq]
  split
  · exact changeSource_clock src s
  · rfl

theorem setState_ne_unset (src : ClockSource) : setState src ≠ .unset := by cases src <;> decide

/-- Neither T nor the roll minute moves with the source, and the clock stays set or UNSET. -/
theorem sourced_time (src : ClockSource) (s : State) : (sourced src s).clock.t = s.clock.t ∧
    (sourced src s).clock.roll = s.clock.roll ∧ ((sourced src s).clock.state = .unset ↔ s.clock.state = .unset) := by
  rw [sourced_clock]
  split
  · refine ⟨rfl, rfl, ?_⟩
    show (if s.clock.state = .unset then ClockState.unset else setState src) = .unset ↔ _
    split
    · simp [*]
    · simp [*, setState_ne_unset]
  · exact ⟨rfl, rfl, .rfl⟩

theorem isSet_of_unset_iff {c d : Clock} (h : d.state = .unset ↔ c.state = .unset) : d.isSet = c.isSet :=
  decide_eq_decide.2 (not_congr h)

/-- Beside the clock and the flags, the source marks the clock drop where the state changes (R61). -/
theorem sourced_frame (src : ClockSource) (s : State) : ∃ att marks seq, sourced src s =
    { s with
      clock := (sourced src s).clock, att := att, display := { s.display with marks := marks, joinSeq := seq }
      part := { s.part with configured := true } } := by
  have h := (applySource_only src s).overlay
  refine ⟨(sourced src s).att, (sourced src s).display.marks, (sourced src s).display.joinSeq, ?_⟩
  show noteConfigured (applySource src s) = _
  conv_lhs => rw [h]
  rfl

theorem sourced_joined (src : ClockSource) (s : State) :
    JoinedBy (if decide (s.clock.state ≠ (sourced src s).clock.state) then [clockMark s] else []) s (sourced src s) := by
  have hnoted : (sourced src s).display = (applySource src s).display := rfl
  rw [sourced_clock]
  by_cases h : sourceChanges src s = true
  · rw [if_pos h]
    have hdisplay : (sourced src s).display = if (s.clock.withSource src).state = s.clock.state then s.display
        else (joinMark (clockMark s) s).display := by
      rw [hnoted, applySource_eq, if_pos h, changeSource_eq]
      rfl
    by_cases hstate : (s.clock.withSource src).state = s.clock.state
    · rw [if_pos hstate] at hdisplay
      rw [hstate, if_neg (by simp)]
      exact (JoinedBy.refl s).of_display rfl hdisplay
    · rw [if_neg hstate] at hdisplay
      rw [if_pos (by simpa using Ne.symm hstate)]
      exact (JoinedBy.joinMark (clockMark s) s).of_display rfl hdisplay
  · rw [if_neg h, if_neg (by simp)]
    have hdisplay : (sourced src s).display = s.display := by
      rw [hnoted, applySource_eq, if_neg h]
    exact (JoinedBy.refl s).of_display rfl hdisplay

theorem sourced_clockChange (h : sourceChanges src s = true) : IsPending .clockChange (sourced src s) := by
  have hsource : applySource src s = changeSource src s := by rw [applySource_eq, if_pos h]
  show IsPending .clockChange (noteConfigured (applySource src s))
  rw [hsource, changeSource_eq]
  exact isPending_pend .clockChange _

end Sourced

/-! ## Time that stands -/

/-- Without a change of T, nothing moves. -/
theorem timePasses_still {s t : State} (hslots : t.slots = s.slots) (hrows : t.rowMap = s.rowMap) (hfoot : t.footnotes = s.footnotes)
    (hparams : t.params = s.params) (hnotices : t.notices = s.notices) (hcues : t.cues = { s.cues with busyTimer := t.cues.busyTimer })
    (htime : t.clock.t = s.clock.t) (hset : t.clock.isSet = s.clock.isSet)
    (hmarks : JoinedBy (if decide (s.clock.state ≠ t.clock.state) then [clockMark s] else []) s t) : TimePasses false false s t := by
  have hsame := sameContent_of_time hslots hrows hfoot hparams htime hset
  unfold TimePasses
  intro old new stateChanged
  rw [if_pos ⟨rfl, rfl, htime⟩]
  exact ⟨hslots, hrows, hfoot, hnotices, hcues, (asksFor_of_sameContent hsame (by rw [hnotices])).advanceMarks hmarks⟩

/-! ## The roll minute -/

/-- T moves around civil time (R47). -/
def rollTarget (r : Nat) (c : Clock) : Nat := (((c.civil : Int) - 60 * r) % 86400).toNat

/-- The advance that a new roll minute brings to a set clock. -/
def rollAdvance (r : Nat) (c : Clock) : Advance :=
  { old := c.t, new := rollTarget r c, roll := decide (rollTarget r c < c.t), leaving := false }

section Roll

variable {src : ClockSource} {r : Nat} {s : State}

theorem applyRoll_moves (hroll : r ≠ s.clock.roll) (hset : s.clock.state ≠ .unset) : applyRoll r s =
    timeAdvance (rollAdvance r s.clock) false s (pend .clockChange { s with clock := { s.clock with roll := r } }) := by
  rw [applyRoll, if_neg hroll, if_neg hset]
  rfl

theorem applyRoll_stands (h : ¬(r ≠ s.clock.roll ∧ s.clock.state ≠ .unset)) :
    applyRoll r s = { s with clock := { s.clock with roll := r } } := by
  unfold applyRoll
  by_cases hroll : r = s.clock.roll
  · rw [if_pos hroll, hroll]
  · have hunset : s.clock.state = .unset := by
      by_contra hset
      exact h ⟨hroll, hset⟩
    rw [if_neg hroll, if_pos hunset]

/-- The clock after source and roll minute. -/
theorem applyRoll_sourced_clock (src : ClockSource) (r : Nat) (s : State) : (applyRoll r (sourced src s)).clock =
    { (sourced src s).clock with
      roll := r
      t := if r ≠ s.clock.roll ∧ s.clock.state ≠ .unset then rollTarget r s.clock else s.clock.t } := by
  obtain ⟨htime, hrollSame, hunset⟩ := sourced_time src s
  have hiff : r ≠ (sourced src s).clock.roll ∧ (sourced src s).clock.state ≠ .unset ↔ r ≠ s.clock.roll ∧ s.clock.state ≠ .unset := by
    rw [hrollSame]
    exact and_congr_right' (not_congr hunset)
  have htarget : rollTarget r (sourced src s).clock = rollTarget r s.clock := by
    rw [rollTarget, rollTarget, Clock.civil, Clock.civil, htime, hrollSame]
  by_cases hmoves : r ≠ s.clock.roll ∧ s.clock.state ≠ .unset
  · obtain ⟨hroll, hset⟩ := hiff.2 hmoves
    rw [if_pos hmoves, applyRoll_moves hroll hset, timeAdvance_clock_of_old rfl, ← htarget]
    rfl
  · rw [if_neg hmoves, applyRoll_stands (mt hiff.1 hmoves), ← htime]

/-- What source and roll minute bring, from the state `s` before them but for the roll minute itself. -/
theorem timePasses_applyRoll {t : State} (hkept : TimeKept (applyRoll r (sourced src s)) t)
    (hdisplay : t.display = (applyRoll r (sourced src s)).display) :
    TimePasses (decide (t.clock.t < s.clock.t)) false { s with clock := { s.clock with roll := r } } t := by
  obtain ⟨htime, hrollSame, hunset⟩ := sourced_time src s
  obtain ⟨att, marks, seq, hframe⟩ := sourced_frame src s
  have hclock := hkept.clock.trans (applyRoll_sourced_clock src r s)
  have hstate : t.clock.state = (sourced src s).clock.state := by rw [hclock]
  have hiff : r ≠ (sourced src s).clock.roll ∧ (sourced src s).clock.state ≠ .unset ↔ r ≠ s.clock.roll ∧ s.clock.state ≠ .unset := by
    rw [hrollSame]
    exact and_congr_right' (not_congr hunset)
  have hjoined := sourced_joined src s
  rw [← hstate] at hjoined
  by_cases hmoves : r ≠ s.clock.roll ∧ s.clock.state ≠ .unset
  · obtain ⟨hroll, hset⟩ := hiff.2 hmoves
    have happly := applyRoll_moves hroll hset
    obtain ⟨w, hw⟩ : ∃ w, w = pend .clockChange { sourced src s with clock := { (sourced src s).clock with roll := r } } := ⟨_, rfl⟩
    rw [← hw] at happly
    have hfrom : TimeFrom (rollAdvance r (sourced src s).clock) { s with clock := { s.clock with roll := r } } w := by
      rw [hw, hframe]
      exact ⟨rfl, rfl, rfl, rfl, rfl, rfl, htime, htime, (isSet_iff _).2 hset⟩
    have hwas : SameContent { s with clock := { s.clock with roll := r } } (sourced src s) := by
      rw [hframe]
      exact sameContent_of_time rfl rfl rfl rfl htime (isSet_of_unset_iff hunset)
    rw [happly] at hkept hdisplay
    obtain ⟨ms, hms, hasks⟩ := hfrom.asks hwas (fun _ => (isSet_iff _).2 hmoves.2) hkept
    have hboth : JoinedBy ((if decide (s.clock.state ≠ t.clock.state) then [clockMark s] else []) ++ ms)
        { s with clock := { s.clock with roll := r } } t :=
      (hjoined.of_display (s' := { s with clock := { s.clock with roll := r } }) (t' := w) rfl (by rw [hw]; rfl)).trans
        (hms.of_display rfl hdisplay)
    have hmarks := (hasks.also (decide (s.clock.state ≠ t.clock.state))).advanceMarks hboth
    rw [Bool.or_false] at hmarks
    have hrolls : (rollAdvance r (sourced src s).clock).roll = decide (t.clock.t < s.clock.t) := by
      rw [hkept.clock, timeAdvance_clock_of_old (hfrom.old.trans hfrom.time.symm), rollAdvance, htime]
    have hpasses := hfrom.passes hkept hmarks
    rw [hrolls] at hpasses
    exact hpasses
  · have happly := applyRoll_stands (mt hiff.1 hmoves)
    rw [happly] at hkept hdisplay
    have hstill : t.clock.t = s.clock.t := by rw [hclock, if_neg hmoves]
    rw [hstill, decide_eq_false (Nat.lt_irrefl _)]
    have hkept' : TimeKept { s with clock := { (sourced src s).clock with roll := r } } t := by
      rw [hframe] at hkept
      exact ⟨hkept.slots, hkept.rowMap, hkept.footnotes, hkept.clock.trans rfl, hkept.params, hkept.notices, hkept.cues⟩
    refine timePasses_still hkept'.slots hkept'.rowMap hkept'.footnotes hkept'.params hkept'.notices hkept'.cues hstill ?_
      (hjoined.of_display rfl hdisplay)
    rw [hclock]
    exact isSet_of_unset_iff hunset

/-- A new roll minute on a set clock pends CLOCK_CHANGE, as a change of the source does (R47, R61). -/
theorem applyRoll_clockChange (h : sourceChanges src s = true ∨ r ≠ s.clock.roll ∧ s.clock.state ≠ .unset) :
    IsPending .clockChange (applyRoll r (sourced src s)) := by
  obtain ⟨-, hrollSame, hunset⟩ := sourced_time src s
  rcases h with h | ⟨hroll, hset⟩
  · exact (sourced_clockChange h).of_flags ((applyRoll_only r _).same .flags)
  · rw [applyRoll_moves (by rw [hrollSame]; exact hroll) (mt hunset.1 hset)]
    exact (isPending_pend .clockChange _).of_flags ((timeAdvance_only _ _ _ _).same .flags)

/-- T that falls is a day roll (R47). -/
theorem applyRoll_dayRoll (h : (applyRoll r (sourced src s)).clock.t < s.clock.t) : IsPending .dayRoll (applyRoll r (sourced src s)) := by
  obtain ⟨htime, hrollSame, hunset⟩ := sourced_time src s
  have hclock := applyRoll_sourced_clock src r s
  by_cases hmoves : r ≠ s.clock.roll ∧ s.clock.state ≠ .unset
  · have happly := applyRoll_moves (s := sourced src s) (by rw [hrollSame]; exact hmoves.1) (mt hunset.1 hmoves.2)
    have htarget : (applyRoll r (sourced src s)).clock.t = rollTarget r (sourced src s).clock := by
      rw [happly, timeAdvance_clock_of_old rfl]
      rfl
    rw [htarget, ← htime] at h
    rw [happly]
    exact timeAdvance_dayRoll (decide_eq_true h) _ _ _
  · rw [hclock, if_neg hmoves] at h
    exact absurd h (Nat.lt_irrefl _)

end Roll

end Sys2Proof.Machine
end

section
/-! PROOFS. A valid configuration applied as a whole (R94, R96, R143, R173, R175, R176). -/

namespace Sys2Proof.Machine

set_option Elab.async false

/-! ## The link under a new mode (R143) -/

/-- The link state under the mode of these parameters. -/
def linkFor (q : Params) (c : CueUnit) : LinkState :=
  if decide (q.linkMode = .off ∧ c.msg = none) then .off
  else if decide (q.linkMode = .timed ∧ (c.link = .speaking ∨ c.link = .stalled)) then (if q.gap = 0 then .ready else .gap)
  else if c.link = .off ∧ q.linkMode ≠ .off then .ready
  else c.link

/-- The gap timer under the mode of these parameters. -/
def gapTimerFor (q : Params) (c : CueUnit) : Option Nat :=
  if decide (q.linkMode = .off ∧ c.msg = none) then none
  else if decide (q.linkMode = .timed ∧ (c.link = .speaking ∨ c.link = .stalled)) then (if q.gap = 0 then none else some q.gap)
  else c.gapTimer

section Link

variable {q : Params} {c : CueUnit}

theorem linkFor_off (hmode : q.linkMode = .off) (hmsg : c.msg = none) : linkFor q c = .off ∧ gapTimerFor q c = none := by
  simp [linkFor, gapTimerFor, hmode, hmsg]

theorem linkFor_gap (hmode : q.linkMode = .timed) (hlink : c.link = .speaking ∨ c.link = .stalled) :
    linkFor q c = (if q.gap = 0 then .ready else .gap) ∧ gapTimerFor q c = if q.gap = 0 then none else some q.gap := by
  simp [linkFor, gapTimerFor, hmode, hlink]

theorem linkFor_ready (hmode : q.linkMode ≠ .off) (hlink : c.link = .off) : linkFor q c = .ready ∧ gapTimerFor q c = c.gapTimer := by
  simp [linkFor, gapTimerFor, hmode, hlink]

theorem linkFor_stays (hoff : ¬(q.linkMode = .off ∧ c.msg = none))
    (hgap : ¬(q.linkMode = .timed ∧ (c.link = .speaking ∨ c.link = .stalled))) (hready : ¬(c.link = .off ∧ q.linkMode ≠ .off)) :
    linkFor q c = c.link ∧ gapTimerFor q c = c.gapTimer := by
  rw [linkFor, gapTimerFor, decide_eq_false hoff, decide_eq_false hgap, if_neg hready]
  exact ⟨rfl, rfl⟩

end Link

theorem followMode_eq (s : State) : ∃ busy, followMode s = { s with cues := { s.cues with
    link := linkFor s.params s.cues, gapTimer := gapTimerFor s.params s.cues, busyTimer := busy } } := by
  have hentersGap : s.params.linkMode = .timed → s.cues.link = .speaking ∨ s.cues.link = .stalled →
      enterGap s = { s with cues := { s.cues with
        link := linkFor s.params s.cues, gapTimer := gapTimerFor s.params s.cues } } := fun hmode hlink => by
    obtain ⟨hstate, htimer⟩ := linkFor_gap hmode hlink
    rw [hstate, htimer, enterGap]
    split <;> rfl
  unfold followMode
  split
  · rename_i hmode hmsg
    obtain ⟨hstate, htimer⟩ := linkFor_off hmode hmsg
    exact ⟨none, by rw [hstate, htimer, enterOff]⟩
  · rename_i m hmode hmsg
    obtain ⟨hstate, htimer⟩ := linkFor_stays (q := s.params) (c := s.cues) (by simp [hmsg]) (by simp [hmode]) (by simp [hmode])
    exact ⟨s.cues.busyTimer, by rw [hstate, htimer]⟩
  · rename_i hlink hsilent hspeaks
    have hmode : s.params.linkMode ≠ .off := fun hmode => by
      cases hmsg : s.cues.msg with
      | none => exact hsilent hmode hmsg
      | some m => exact hspeaks m hmode hmsg
    obtain ⟨hstate, htimer⟩ := linkFor_ready hmode hlink
    exact ⟨s.cues.busyTimer, by rw [hstate, htimer]⟩
  · rename_i hmode hlink
    exact ⟨s.cues.busyTimer, hentersGap hmode (.inl hlink)⟩
  · rename_i hmode hlink
    exact ⟨s.cues.busyTimer, hentersGap hmode (.inr hlink)⟩
  · rename_i hsilent hspeaks hoff hspeaking hstalled
    have hmode : s.params.linkMode ≠ .off := fun hmode => by
      cases hmsg : s.cues.msg with
      | none => exact hsilent hmode hmsg
      | some m => exact hspeaks m hmode hmsg
    obtain ⟨hstate, htimer⟩ := linkFor_stays (q := s.params) (c := s.cues) (fun h => hmode h.1)
      (fun ⟨htimed, hlink⟩ => hlink.elim (hspeaking htimed) (hstalled htimed)) (fun h => hoff h.1)
    exact ⟨s.cues.busyTimer, by rw [hstate, htimer]⟩

/-! ## The drop table under a new layout (R94, R96) -/

section Roles

variable {q : Params} {s : State}

/-- An entry under its new role: fresh with none, its own as a wall row still, else with nothing shown. -/
theorem Drop.takeRole_eq {d : Drop} (h : d.fits = true) (role : Role) : d.takeRole role =
    if role = .none then { role := .none, online := true, failures := 0, shown := none }
    else match d.role, role with
      | .wall _, .wall _ => { d with role := role }
      | _, _ => { d with role := role, shown := none } := by
  obtain ⟨was, online, failures, shown⟩ := d
  unfold Drop.takeRole
  by_cases hsame : role = was
  · subst hsame
    rw [if_pos rfl]
    cases role with
    | none =>
      simp only [Drop.fits, Bool.and_eq_true, decide_eq_true_iff, Option.isNone_iff_eq_none] at h
      obtain ⟨-, ⟨honline, hfailures⟩, hshown⟩ := h
      rw [if_pos rfl, honline, hfailures, hshown]
    | wall i => rfl
    | board p =>
      simp only [Drop.fits, Bool.and_eq_true, Option.isNone_iff_eq_none] at h
      rw [h.2]
      rfl
    | clock =>
      simp only [Drop.fits, Bool.and_eq_true, Option.isNone_iff_eq_none] at h
      rw [h.2]
      rfl
    | ticker =>
      simp only [Drop.fits, Bool.and_eq_true, Option.isNone_iff_eq_none] at h
      rw [h.2]
      rfl
  · rw [if_neg hsame]
    by_cases hnone : role = .none
    · rw [if_pos hnone, if_pos hnone]
      rfl
    · rw [if_neg hnone, if_neg hnone]
      cases was <;> cases role <;> rfl

theorem role_takeRoles (hsound : DisplaySound s) {a : Nat} (ha : a < 128) : (dropAt (takeRoles q s) a).role = roleOf q a := by
  rw [dropAt_takeRoles q (by rw [hsound.1]; exact ha), takeRole_role]

theorem lt_of_configured (hsound : DisplaySound s) {a : Nat} (h : (dropAt s a).role ≠ .none) : a < 128 :=
  lt_of_role hsound.1 h

/-- Under a new layout a mark or a probe request stays with a drop that keeps a role. -/
theorem kept_takeRoles (hsound : DisplaySound s) {a : Nat} (h : (dropAt s a).role ≠ .none) :
    (decide (roleOf q a ≠ .none) || decide ((dropAt s a).role = .none)) = decide ((dropAt (takeRoles q s) a).role ≠ .none) := by
  rw [role_takeRoles hsound (lt_of_configured hsound h), decide_eq_false h, Bool.or_false]

theorem marks_takeRoles (hsound : DisplaySound s) :
    (takeRoles q s).display.marks = s.display.marks.filter fun m => decide ((dropAt (takeRoles q s) m.drop).role ≠ .none) := by
  obtain ⟨-, ⟨-, hmarks⟩, -⟩ := displaySound_iff.1 hsound
  exact List.filter_congr fun m hm => kept_takeRoles hsound (hmarks m hm).2

theorem probes_takeRoles (hsound : DisplaySound s) :
    (takeRoles q s).display.probes = s.display.probes.filter fun p => decide ((dropAt (takeRoles q s) p.drop).role ≠ .none) := by
  obtain ⟨-, -, ⟨-, hprobes⟩, -⟩ := displaySound_iff.1 hsound
  exact List.filter_congr fun p hp => kept_takeRoles hsound (hprobes p hp).2

theorem frame_takeRoles (hsound : DisplaySound s) : (takeRoles q s).display.frame = s.display.frame.map fun f =>
    { f with discard := f.discard || decide ((dropAt (takeRoles q s) f.drop).role ≠ (dropAt s f.drop).role) } := by
  obtain ⟨-, -, -, hframe⟩ := displaySound_iff.1 hsound
  cases hf : s.display.frame with
  | none =>
    have hnone : (takeRoles q s).display.frame = none := by simp [takeRoles, hf]
    rw [hnone]
    rfl
  | some f =>
    have hsome : (takeRoles q s).display.frame = some
        { f with discard := f.discard || decide (roleOf q f.drop ≠ (dropAt s f.drop).role) } := by simp [takeRoles, hf]
    rw [hsome, Option.map_some]
    cases hdiscard : f.discard with
    | true => rfl
    | false =>
      rw [role_takeRoles hsound (lt_of_configured hsound (hframe f hf hdiscard).1)]

end Roles

/-! ## The configuration applied -/

section Apply

variable {words : List Word} {s : State}

/-- Roles, parameters, boards and link, before source and roll minute. -/
def laidOut (q : Params) (s : State) : State := followMode (discardBoards (setParams q (takeRoles q s)))

theorem laidOut_eq (q : Params) (s : State) : ∃ busy, laidOut q s = { s with
    params := q
    footnotes := s.footnotes.zipIdx.map fun e => if q.p < e.2 + 1 then none else e.1
    display := (takeRoles q s).display
    cues := { s.cues with link := linkFor q s.cues, gapTimer := gapTimerFor q s.cues, busyTimer := busy } } := by
  obtain ⟨busy, h⟩ := followMode_eq (discardBoards (setParams q (takeRoles q s)))
  exact ⟨busy, h⟩

theorem applyConfig_eq (words : List Word) (s : State) :
    applyConfig words s = applyRoll (cfRoll.value words) (sourced (sourceOf (rawSource words)) (laidOut (paramsOf words) s)) := rfl

/-- The load begins at slot 0 (R41, R176). -/
theorem beginLoad_eq (s : State) : beginLoad s = { s with
    part := { s.part with state := .loading, reading := .table 0 0 }
    mem := { s.mem with reads := s.mem.reads ++ [{ addr := tableAddr s.strap 0 0, source := .load }] }
    att := s.att.pend .started } := rfl

/-- What source and roll minute may change, and the rest is as laid out. -/
theorem applyRoll_sourced_eq (r : Nat) (src : ClockSource) (s : State) : ∃ slots rows foot att marks seq queue next msg noted entries
    shown index dwell free, applyRoll r (sourced src s) = { s with
      slots := slots, rowMap := rows, footnotes := foot, clock := (applyRoll r (sourced src s)).clock, att := att
      display := { s.display with marks := marks, joinSeq := seq }
      cues := { s.cues with queue := queue, next := next, msg := msg }
      mem := { s.mem with noted := noted }
      notices := { s.notices with entries := entries, shown := shown, rotIndex := index, dwellTimer := dwell }
      freeCount := free
      part := { s.part with configured := true } } := by
  have honly : Only (timeLeaves ++ [.configured]) s (applyRoll r (sourced src s)) :=
    (((applySource_only src s).trans (noteConfigured_only _)).trans (applyRoll_only r _)).mono
  have hconfigured : (applyRoll r (sourced src s)).part.configured = true := (applyRoll_only r (sourced src s)).same .configured
  obtain ⟨v, hv⟩ : ∃ v, v = applyRoll r (sourced src s) := ⟨_, rfl⟩
  rw [← hv] at honly hconfigured ⊢
  refine ⟨v.slots, v.rowMap, v.footnotes, v.att, v.display.marks, v.display.joinSeq, v.cues.queue, v.cues.next, v.cues.msg,
    v.mem.noted, v.notices.entries, v.notices.shown, v.notices.rotIndex, v.notices.dwellTimer, v.freeCount, ?_⟩
  rw [← hconfigured]
  exact honly.overlay

end Apply

end Sys2Proof.Machine
end

section
/-! PROOFS. A valid configuration is applied, and the table load begins (O17). -/

namespace Sys2Proof.Machine

set_option Elab.async false

section Valid

variable {data : Word} {s : State} {addr : Nat} {rest : List ReadReq} {answers : List Word}

/-- The state after the sixteenth answer, with CONFIG_CLAMPED judged (R175). -/
def judged (words : List Word) (rest : List ReadReq) (s : State) : State := setClamped (configClamped words) (readTaken rest s)

/-- The state laid out by the words. -/
def configured (words : List Word) (rest : List ReadReq) (s : State) : State := laidOut (paramsOf words) (judged words rest s)

/-- The state with source and roll minute in force too. -/
def applied (words : List Word) (rest : List ReadReq) (s : State) : State :=
  applyRoll (cfRoll.value words) (sourced (sourceOf (rawSource words)) (configured words rest s))

theorem exec_validConfig (hpin : s.resetPin = false) (hport : s.mem.port = .ownRead { addr := addr, source := .load })
    (hreads : s.mem.reads = { addr := addr, source := .load } :: rest) (hreading : s.part.reading = .config answers)
    (hlen : answers.length = 15) (hvalid : LayoutValid s.strap (paramsOf (answers ++ [data]))) :
    exec (.ownReadComplete data false) s = .next (settle s (beginLoad (applied (answers ++ [data]) rest s))) := by
  have hexec := exec_ownReadComplete hpin hport hreads data false
  have htaken : readFaulted { addr := addr, source := .load } rest false s = readTaken rest s := rfl
  rw [deliver_load, deliverLoad_config ((readFaulted_reading _ _ _ _).trans hreading), htaken, configAnswer, if_neg (by decide),
    if_neg (by omega), judge, show (readTaken rest s).strap = s.strap from rfl, if_pos (configValid_iff.2 hvalid)] at hexec
  exact hexec

/-- What the words lay out. -/
theorem configured_eq (words : List Word) (rest : List ReadReq) (s : State) : ∃ busy, configured words rest s = { s with
    mem := { s.mem with port := .idle, counter := 0, reads := rest }
    part := { s.part with clamped := configClamped words }
    params := paramsOf words
    footnotes := s.footnotes.zipIdx.map fun e => if (paramsOf words).p < e.2 + 1 then none else e.1
    display := (takeRoles (paramsOf words) s).display
    cues := { s.cues with
      link := linkFor (paramsOf words) s.cues, gapTimer := gapTimerFor (paramsOf words) s.cues, busyTimer := busy } } := by
  obtain ⟨busy, h⟩ := laidOut_eq (paramsOf words) (judged words rest s)
  exact ⟨busy, h⟩

end Valid

/-- The clock under a source and a roll minute, in the words of the specification (R47, R48, R58). -/
theorem clock_applied {src source : ClockSource} {r : Nat} {s p : State} (hclock : p.clock = s.clock)
    (hconfigured : p.part.configured = s.part.configured) (hsource : source = if s.part.configured then s.clock.source else src) :
    let moves := decide (r ≠ s.clock.roll ∧ s.clock.state ≠ .unset)
    let c : Clock := { s.clock with
      roll := r
      t := if moves then ((((s.clock.t + 60 * s.clock.roll : Nat) : Int) - (60 * r : Nat)) % 86400).toNat else s.clock.t }
    sourceChanges src p = decide (source ≠ s.clock.source) ∧
      (applyRoll r (sourced src p)).clock = (if decide (source ≠ s.clock.source) then { c with
        source := source, slew := 0, holdNext := false, loss := none
        state := if c.state = .unset then .unset else if source = .internal then .running else .freerun } else c) := by
  intro moves c
  have hchanges : sourceChanges src p = decide (source ≠ s.clock.source) := by
    rw [sourceChanges, hclock, hconfigured, hsource]
    cases s.part.configured <;> simp
  have htarget : rollTarget r s.clock = ((((s.clock.t + 60 * s.clock.roll : Nat) : Int) - (60 * r : Nat)) % 86400).toNat := by
    rw [rollTarget, Clock.civil]
    omega
  have ht : (if r ≠ s.clock.roll ∧ s.clock.state ≠ .unset then rollTarget r s.clock else s.clock.t) = c.t := by
    rw [htarget]
    exact (if_congr decide_eq_true_iff rfl rfl).symm
  refine ⟨hchanges, ?_⟩
  rw [applyRoll_sourced_clock, sourced_clock, hchanges, hclock, ht]
  by_cases hdiff : source ≠ s.clock.source
  · have hsrc : src = source := by
      cases hc : s.part.configured with
      | true => exact absurd (by rw [hsource, hc, if_pos rfl]) hdiff
      | false =>
        rw [hsource, hc]
        rfl
    have hstate : setState src = if source = .internal then .running else .freerun := by
      rw [hsrc]
      cases source <;> rfl
    rw [if_pos (decide_eq_true hdiff), if_pos (decide_eq_true hdiff), Clock.withSource, hstate, hsrc]
  · rw [if_neg (by simpa using hdiff), if_neg (by simpa using hdiff)]

/-- The state `t` in which the load has begun, after a configuration that leads to `v`. -/
structure LoadBegun (words : List Word) (rest : List ReadReq) (s v t : State) : Prop where
  params : t.params = paramsOf words
  part : t.part = { state := .loading, reading := .table 0 0, clamped := configClamped words, configured := true }
  reads : t.mem.reads = rest ++ [{ addr := strapBase s.strap + 0x1000, source := .load }]
  display : t.display = v.display
  layout : t.display = { (takeRoles (paramsOf words) s).display with marks := t.display.marks, joinSeq := t.display.joinSeq }
  flags : ∀ e, IsPending e v ∨ e = .started → IsPending e t
  kept : TimeKept v t
  refTime : t.refTime = s.refTime
  only : OnlyTime { s with
    params := paramsOf words, part := t.part
    mem := { s.mem with port := .idle, counter := 0, reads := t.mem.reads }
    display := (takeRoles (paramsOf words) s).display
    cues := { s.cues with link := linkFor (paramsOf words) s.cues, gapTimer := gapTimerFor (paramsOf words) s.cues } } t

theorem loadBegun_applied (words : List Word) (rest : List ReadReq) (s : State) :
    LoadBegun words rest s (applied words rest s) (settle s (beginLoad (applied words rest s))) := by
  obtain ⟨busy, hconfigured⟩ := configured_eq words rest s
  obtain ⟨slots, rows, foot, att, marks, seq, queue, next, msg, noted, entries, shown, index, dwell, free, hframe⟩ :=
    applyRoll_sourced_eq (cfRoll.value words) (sourceOf (rawSource words)) (configured words rest s)
  have hv : applied words rest s = _ := hframe
  obtain ⟨clock, hclock⟩ : ∃ c, c = (applyRoll (cfRoll.value words) (sourced (sourceOf (rawSource words)) (configured words rest s))).clock :=
    ⟨_, rfl⟩
  rw [← hclock, hconfigured] at hv
  obtain ⟨v, hvdef⟩ : ∃ v, v = applied words rest s := ⟨_, rfl⟩
  rw [← hvdef] at hv ⊢
  have hstrap : v.strap = s.strap := by rw [hv]
  have haddr : tableAddr v.strap 0 0 = strapBase s.strap + 0x1000 := by
    rw [hstrap]
    simp [tableAddr]
  have hpend : ∀ e, IsPending e v ∨ e = .started → IsPending e (pend .started v) := fun e he => by
    rcases he with he | rfl
    · exact he.of_flags ⟨[.started], rfl⟩
    · exact isPending_pend .started v
  have hflags : ∀ e, IsPending e v ∨ e = .started → IsPending e (settle s (beginLoad v)) := fun e he => isPending_settle (hpend e he)
  have hkept : TimeKept v (settle s (beginLoad v)) := .trans (v := beginLoad v) ⟨rfl, rfl, rfl, rfl, rfl, rfl, rfl⟩ (timeKept_settle s _)
  have hdisplay : (settle s (beginLoad v)).display = v.display := by
    rw [settle_eq]
    rfl
  rw [beginLoad_eq, haddr, settle_eq, hv] at hdisplay hflags hkept ⊢
  exact ⟨rfl, rfl, rfl, hdisplay, rfl, hflags, hkept, rfl, rfl⟩

/-- Settles O17: roles, parameters, boards and link as laid out; then source and roll minute, with the change of T they bring; the load
begins. -/
theorem validConfigurationIsApplied : Obligations.ValidConfigurationIsApplied := by
  unfold Obligations.ValidConfigurationIsApplied
  intro data s addr rest answers hpin hport hreads hreading hlen ht hroll hsound words q hvalid
  have hexec := exec_validConfig (data := data) hpin hport hreads hreading hlen hvalid
  have hbegun := loadBegun_applied words rest s
  obtain ⟨t, htdef⟩ : ∃ t, t = settle s (beginLoad (applied words rest s)) := ⟨_, rfl⟩
  rw [← htdef] at hbegun hexec
  have hdrop : ∀ a, dropAt t a = dropAt (takeRoles q s) a := fun a => by
    rw [dropAt, hbegun.layout]
    rfl
  refine ⟨t, hexec, hbegun.params, hbegun.part, hbegun.reads, hbegun.flags _ (.inr rfl), fun a ha => ?_, ?_, ?_, ?_⟩
  · intro d role
    rw [hdrop, dropAt_takeRoles q (by rw [hsound.1]; exact ha)]
    exact (Drop.takeRole_eq (hsound.2.1 a ha).2 (roleOf q a)).trans rfl
  · simp only [hdrop]
    exact (congrArg Display.probes hbegun.layout).trans (probes_takeRoles hsound)
  · simp only [hdrop]
    exact (congrArg Display.frame hbegun.layout).trans (frame_takeRoles hsound)
  · intro source changes roll moves c toGap toOff u
    obtain ⟨busy, hconfigured⟩ := configured_eq words rest s
    have hpclock : (configured words rest s).clock = s.clock := by rw [hconfigured]
    obtain ⟨hchanges, hclock⟩ := clock_applied (r := roll) (src := sourceOf (rawSource words)) (source := source) hpclock
      (by rw [hconfigured]) rfl
    have hmoves : moves = true ↔ roll ≠ s.clock.roll ∧ s.clock.state ≠ .unset := decide_eq_true_iff
    have hpasses := timePasses_applyRoll hbegun.kept hbegun.display
    have hlayout : ({ s.display with
        drops := t.display.drops, probes := t.display.probes, frame := t.display.frame
        marks := s.display.marks.filter fun m => decide ((dropAt t m.drop).role ≠ .none) } : Display) =
        (takeRoles q s).display := by
      simp only [hdrop]
      rw [← marks_takeRoles hsound, hbegun.layout]
      rfl
    have hu : u = { u with display := (takeRoles q s).display } := by rw [← hlayout]
    refine ⟨hbegun.kept.clock.trans hclock, fun h => hbegun.flags _ (.inl (applyRoll_clockChange ?_)),
      fun h => hbegun.flags _ (.inl (applyRoll_dayRoll ?_)), ?_, ?_, hbegun.refTime⟩
    · rw [hchanges, hpclock]
      exact h.imp_right hmoves.1
    · rw [hpclock]
      exact hbegun.kept.clock ▸ h
    · rw [hpclock, hconfigured] at hpasses
      rw [hu]
      exact hpasses
    · rw [hu]
      exact hbegun.only

end Sys2Proof.Machine
end
